-- ==== Sys2Proof/Word.lean ====
section
/-! DEFINITION. The values the block works on: bytes, frames, addresses and four-entry channel tables
(spec/00_scope.md R7, spec/10_state.md R26 and R27, spec/30_encoding.md R73). -/

namespace Sys2Proof

/-- Every frame byte, address byte, channel number and hop-table entry is 8 bits (R7). -/
abbrev Byte := BitVec 8

/-- A frame is exactly 10 bytes, f[0] to f[9] (R73). -/
structure Frame where
  f0 : Byte
  f1 : Byte
  f2 : Byte
  f3 : Byte
  f4 : Byte
  f5 : Byte
  f6 : Byte
  f7 : Byte
  f8 : Byte
  f9 : Byte
  deriving DecidableEq, Repr, Inhabited

/-- Five address bytes in index order 0 to 4; index 0 is the low byte (R27, R53). -/
structure Address where
  a0 : Byte
  a1 : Byte
  a2 : Byte
  a3 : Byte
  a4 : Byte
  deriving DecidableEq, Repr, Inhabited

/-- Four channel numbers in index order 0 to 3 (R8, R26). -/
structure ChannelTable where
  c0 : Byte
  c1 : Byte
  c2 : Byte
  c3 : Byte
  deriving DecidableEq, Repr, Inhabited

/-- The control fields of a frame (R29, R78). The axes and trims are 8-bit two's complement. -/
structure Controls where
  throttle  : Byte
  pitch     : Byte
  yaw       : Byte
  roll      : Byte
  trimPitch : Byte
  trimYaw   : Byte
  trimRoll  : Byte
  video     : Bool
  picture   : Bool
  highspeed : Bool
  flip      : Bool
  deriving DecidableEq, Repr, Inhabited

end Sys2Proof
end

