-- ==== Sys2Proof/Config.lean ====
section
/-! DEFINITION. The OPEN parameters of spec/00_scope.md R6: fixed for a block, given no value by the spec.
Each is an opaque constant, so that a claim holds whatever its value is. -/

namespace Sys2Proof.Config

open Sys2Proof

/-- The frame bytes a flag may come from: a byte index in 4, 5, 6 (R6, R109). -/
inductive FlagByte where
  | f4
  | f5
  | f6
  deriving DecidableEq, Repr, Inhabited

/-- Where a flag is read: a frame byte and an 8-bit mask (R6, R109). -/
structure FlagSrc where
  byte : FlagByte
  mask : Byte
  deriving DecidableEq, Repr, Inhabited

/-- RXQ_DEPTH is "a positive integer or unbounded" (R6). `bounded n` is the depth `n + 1`, so a
depth of zero cannot be written. -/
inductive QueueDepth where
  | unbounded
  | bounded (beyondFirst : Nat)
  deriving DecidableEq, Repr, Inhabited

/-- BIND_ADDRESS (R6, R32). DESIGN CHOICE: left free; log entry 4, safe. -/
opaque bindAddress : Address

/-- FLAG_SRC_VIDEO (R6, R109). DESIGN CHOICE: left free; log entry 5, safe. -/
opaque flagSrcVideo : FlagSrc

/-- FLAG_SRC_PICTURE (R6, R109). DESIGN CHOICE: left free; log entry 5, safe. -/
opaque flagSrcPicture : FlagSrc

/-- FLAG_SRC_HIGHSPEED (R6, R109). DESIGN CHOICE: left free; log entry 5, safe. -/
opaque flagSrcHighspeed : FlagSrc

/-- FLAG_SRC_FLIP (R6, R109). DESIGN CHOICE: left free; log entry 5, safe. -/
opaque flagSrcFlip : FlagSrc

/-- RXQ_DEPTH (R6, R62). DESIGN CHOICE: left free; log entry 6, safe. -/
opaque rxqDepth : QueueDepth

end Sys2Proof.Config
end

