-- ==== Sys2Proof/Machine/Params.lean ====
section
/-! DEFINITION. The parameters of spec/00_scope.md R6 that have a value. The spec calls the literals unaudited
(spec/93_implementation_defined.md I1; log entry 18, UNVERIFIED), so each stands here once, by name. -/

namespace Sys2Proof.Machine

open Sys2Proof

/-- CKS_CONST (R6, R101). -/
def cksConst : Byte := 0x55

/-- BIND_MARK, in bytes 5 and 6 (R6, R104). -/
def bindMark : Byte := 0xAA

/-- BASE1 (R6, R142). -/
def base1 : ChannelTable := ⟨0x0a, 0x1a, 0x2a, 0x3a⟩

/-- BASE2 (R6, R144). -/
def base2 : ChannelTable := ⟨0x2a, 0x0a, 0x42, 0x22⟩

/-- BASE3 (R6, R146). -/
def base3 : ChannelTable := ⟨0x1a, 0x3a, 0x12, 0x32⟩

/-- HOP_FIXED_1E (R6, R147). -/
def hopFixed1E : ChannelTable := ⟨0x21, 0x41, 0x18, 0x38⟩

/-- HOP_FIXED_1F (R6, R148). -/
def hopFixed1F : ChannelTable := ⟨0x21, 0x41, 0x19, 0x39⟩

/-- BIND_CHANNELS (R6, R32). -/
def bindChannels : ChannelTable := ⟨0x4b, 0x30, 0x40, 0x20⟩

/-- BIND_DWELL_MS (R6, R176). -/
def bindDwellMs : Nat := 128

/-- SIGNAL_LOSS_MS (R6, R186). -/
def signalLossMs : Nat := 4000

end Sys2Proof.Machine
end

