-- ==== Sys2Proof/Machine/Operands.lean ====
section
/-! DEFINITION. Every operand the block assembles from frame bytes (spec/30_encoding.md R81) and the combinational
units of the frame codec that read no register (spec/41_frame_codec.md R100 to R108). -/

namespace Sys2Proof

/-- The ten bytes of a frame, f[0] first (R52, R75). -/
def Frame.toBytes (f : Frame) : List Byte :=
  [f.f0, f.f1, f.f2, f.f3, f.f4, f.f5, f.f6, f.f7, f.f8, f.f9]

/-- The nine bytes the checksum covers, f[0..8] (R101). -/
def Frame.payload (f : Frame) : List Byte :=
  [f.f0, f.f1, f.f2, f.f3, f.f4, f.f5, f.f6, f.f7, f.f8]

/-- TX_ADDR[i] = f[4 - i] (R27, R53). -/
def Frame.address (f : Frame) : Address :=
  ⟨f.f4, f.f3, f.f2, f.f1, f.f0⟩

/-- The entry a 2-bit index register selects (R50). -/
def ChannelTable.get (t : ChannelTable) (i : BitVec 2) : Byte :=
  if i = 0 then t.c0 else if i = 1 then t.c1 else if i = 2 then t.c2 else t.c3

/-- Every entry plus an unsigned offset (R81 "hop offset"). -/
def ChannelTable.addOffset (t : ChannelTable) (off : Byte) : ChannelTable :=
  ⟨t.c0 + off, t.c1 + off, t.c2 + off, t.c3 + off⟩

/-- The eight bytes of the OUT layout; byte 7 holds VIDEO in bit 0, PICTURE in bit 1, HIGHSPEED in bit 2 and
FLIP in bit 3 (R78). -/
def Controls.toBytes (r : Controls) : List Byte :=
  [r.throttle, r.pitch, r.yaw, r.roll, r.trimPitch, r.trimYaw, r.trimRoll,
    (0 : BitVec 4) ++ BitVec.ofBool r.flip ++ BitVec.ofBool r.highspeed ++ BitVec.ofBool r.picture
      ++ BitVec.ofBool r.video]

namespace Machine

/-- The XOR fold of f[0..8], starting from byte 0 (R101). -/
def checksumFold (f : Frame) : Byte :=
  [f.f1, f.f2, f.f3, f.f4, f.f5, f.f6, f.f7, f.f8].foldl (· ^^^ ·) f.f0

/-- CHECKSUM: the fold plus the constant, modulo 256 (R101). -/
def checksum (f : Frame) : Byte :=
  checksumFold f + cksConst

/-- VALIDATE: the stored checksum is the computed one (R103). -/
def validate (f : Frame) : Bool :=
  checksum f == f.f9

/-- IS_BIND_MARKER: 0xAA in bytes 5 and 6, whatever the checksum (R104). -/
def isBindMarker (f : Frame) : Bool :=
  f.f5 == bindMark && f.f6 == bindMark

/-- The three frame classes (R74). -/
inductive FrameClass where
  | invalid
  | bind
  | control
  deriving DecidableEq, Repr

/-- The class of a frame: the checksum is tested first (R74). -/
def frameClass (f : Frame) : FrameClass :=
  if validate f then (if isBindMarker f then .bind else .control) else .invalid

/-- FOLD8 as an exact integer: `v >= 128 ? 128 - v : v` (R106). -/
def fold8Value (v : Byte) : Int :=
  if 128 ≤ v.toNat then 128 - (v.toNat : Int) else (v.toNat : Int)

/-- FOLD8, stored as 8-bit two's complement (R106). -/
def fold8 (v : Byte) : Byte :=
  BitVec.ofInt 8 (fold8Value v)

/-- FOLD6 as an exact integer: bits 5:0 of the operand, `v >= 32 ? 32 - v : v` (R107). -/
def fold6Value (b : Byte) : Int :=
  let v := b &&& 0x3F
  if 32 ≤ v.toNat then 32 - (v.toNat : Int) else (v.toNat : Int)

/-- FOLD6, stored as 8-bit two's complement (R107). -/
def fold6 (b : Byte) : Byte :=
  BitVec.ofInt 8 (fold6Value b)

/-- `low5 = a & 0x1F` (R76, R141). -/
def low5 (a : Byte) : Byte :=
  a &&& 0x1F

end Machine

end Sys2Proof
end

