-- ==== Sys2Proof/Machine/Flags.lean ====
section
/-! DEFINITION. The flag bits of a control frame (spec/41_frame_codec.md R109) and the record DECODE makes
(R110). The block has no condition codes (spec/10_state.md R36). -/

namespace Sys2Proof

/-- The frame byte a FLAG_SRC parameter names (R109). -/
def Frame.flagByte (f : Frame) (b : Config.FlagByte) : Byte :=
  match b with
  | .f4 => f.f4
  | .f5 => f.f5
  | .f6 => f.f6

namespace Machine

/-- `(f[byte] & mask) != 0` (R109). -/
def flagBit (src : Config.FlagSrc) (f : Frame) : Bool :=
  f.flagByte src.byte &&& src.mask != 0

/-- VIDEO (R109). -/
def videoFlag (f : Frame) : Bool := flagBit Config.flagSrcVideo f

/-- PICTURE (R109). -/
def pictureFlag (f : Frame) : Bool := flagBit Config.flagSrcPicture f

/-- HIGHSPEED (R109). -/
def highspeedFlag (f : Frame) : Bool := flagBit Config.flagSrcHighspeed f

/-- FLIP (R109). -/
def flipFlag (f : Frame) : Bool := flagBit Config.flagSrcFlip f

/-- DECODE: the control fields of any frame (R110). -/
def decodeControls (f : Frame) : Controls where
  throttle := f.f0
  pitch := fold8 f.f1
  yaw := fold8 f.f2
  roll := fold8 f.f3
  trimPitch := fold6 f.f5
  trimYaw := fold6 f.f6
  trimRoll := fold6 f.f7
  video := videoFlag f
  picture := pictureFlag f
  highspeed := highspeedFlag f
  flip := flipFlag f

end Machine

end Sys2Proof
end

