-- ==== Sys2Proof/Machine/State.lean ====
section
/-! DEFINITION. The state of the block, the reasons a step can stop, and the state after RESET
(spec/10_state.md). The block has no memory and no program counter (R21, R50). -/

namespace Sys2Proof.Machine

open Sys2Proof

/-- The values of the 2-bit register PSTATE (R23). -/
inductive PState where
  /-- Encoding 0. -/
  | noBind
  /-- Encoding 1. -/
  | waitFirstSynchro
  /-- Encoding 2. -/
  | bound
  /-- Encoding 3: reserved, no rule writes it (R23, R190). -/
  | reserved
  deriving DecidableEq, Repr, Inhabited

/-- The status a TICK returns (R79). -/
inductive Status where
  | boundNewValues
  | boundNoValues
  | notBound
  | bindInProgress
  deriving DecidableEq, Repr

/-- The transceiver commands the block emits (R80). SetAddress always carries five bytes. -/
inductive Command where
  | setAddress (a : Address)
  | setChannel (c : Byte)
  | flushRx
  | clearRxFlag
  deriving DecidableEq, Repr

/-- What an operation returns to the host (R72). `nothing` is RESET's: it returns no status (R170). -/
inductive OpResult where
  | nothing
  | status (st : Status)
  | checksum (b : Byte)
  | bit (b : Bool)
  | record (r : Controls)
  | table (t : ChannelTable)
  | signed (v : Byte)
  deriving DecidableEq, Repr

/-- What a host can ask of the block: a transaction, whose bytes begin with the command byte and whose time
travels on a separate input (R71, R72), or a read of OUT (R29, R237). -/
inductive Request where
  | transaction (now : Nat) (bytes : List Byte)
  | readOut
  deriving DecidableEq, Repr

/-- The registers of spec/10_state.md section 3, the working state of R34, and the model's inputs and
outputs (log entries 1 and 8). -/
structure State where
  /-- RESET has run since power-up (R172, R191, R251). -/
  resetDone : Bool
  /-- PSTATE (R23). -/
  pstate : PState
  /-- BIND_IDX (R24). -/
  bindIdx : BitVec 2
  /-- HOP_IDX (R25). -/
  hopIdx : BitVec 2
  /-- HOP_TABLE (R26). -/
  hopTable : ChannelTable
  /-- TX_ADDR (R27). -/
  txAddr : Address
  /-- LAST_TS in milliseconds, unbounded (R7, R28). -/
  lastTs : Nat
  /-- OUT; `none` is the spec's "no value" (R29, R38). -/
  out : Option Controls
  /-- PROG_CHAN (R30). -/
  progChan : Byte
  /-- PROG_ADDR (R31). -/
  progAddr : Address
  /-- valid_seen (R34). -/
  validSeen : Bool
  /-- decoded_seen (R34). -/
  decodedSeen : Bool
  /-- vals; `none` is cleared (R34). -/
  vals : Option Controls
  /-- The model's own: the result of the latest operation (R72; log entry 8). -/
  result : OpResult
  /-- The model's own: the commands of the latest operation, in emission order (R56, R174; log entry 8). -/
  commands : List Command
  /-- The model's own: the host requests not yet run, oldest first (log entry 1). -/
  requests : List Request
  deriving DecidableEq, Repr

/-- The model faults of R226. The block itself never faults. -/
inductive Fault where
  /-- Raised by a TICK that finds PSTATE = 3 (R190). Safe: no run of the rules reaches it. -/
  | reservedPstate
  /-- The spec's fault `out_unwritten`, "a read of OUT before the first BOUND_NEW_VALUES" (R226, R38): raised by the
host's read of OUT and by no instruction. Safe: the spec itself makes that read a fault. -/
  | outUnwritten
  deriving DecidableEq, Repr

/-- The refusals of R226, and those the model adds. A refusal changes nothing and errs toward unprovable. -/
inductive Refusal where
  /-- Raised by exec for an instruction without a meaning; no arm of this model raises it. Safe. -/
  | notModelled (mnemonic : String)
  /-- Raised for OPC 0x9 to 0xF (R82, R226). Safe. -/
  | reservedOpcode
  /-- Raised for cmd[7:5] not 000 (R82, R226). Safe. -/
  | reservedBits
  /-- Raised for PEND = 1 with an OPC other than TICK (R82, R226). Safe. -/
  | pendNotTick
  /-- Raised by a TICK with PEND = 0 that carries frames (R172, R226). Safe. -/
  | framesWithoutPend
  /-- Raised by a TICK with more frames than RXQ_DEPTH (R62, R172, R226). Safe. -/
  | queueOverflow
  /-- Raised by decoding, for a frame that is not 10 bytes (R55, R82, R226). Safe. -/
  | badFrameLength
  /-- Raised by a TICK with `now` below LAST_TS (R172, R226). Safe. -/
  | timeBackwards
  /-- Raised by a TICK before the first RESET (R172, R191, R226). Safe. -/
  | noReset
  /-- The model's own: raised by a case or sub-operation that its word or selection condition does not
  select (log entry 9). Safe. -/
  | notSelected
  /-- The model's own: raised by decoding, for a transaction of no bytes (log entry 12). Safe. -/
  | emptyTransaction
  /-- The model's own: raised by decoding, for a transaction that ends before its operand (log entry 12). Safe. -/
  | missingOperand
  /-- The model's own: raised by decoding, for bytes after the last operand (log entry 12). Safe. -/
  | trailingBytes
  /-- The model's own: raised by step when the host has sent nothing: "the model has no step" (R237; log
  entry 15). Safe. -/
  | hostIdle
  deriving DecidableEq, Repr

/-- The machine right after RESET with time input 0 (R38, R170). DESIGN CHOICE: the time 0 and the values
of the model's own fields (log entries 1, 2, 7, 8). -/
def State.reset : State where
  resetDone := true
  pstate := .noBind
  bindIdx := 0
  hopIdx := 0
  hopTable := ⟨0, 0, 0, 0⟩
  txAddr := ⟨0, 0, 0, 0, 0⟩
  lastTs := 0
  out := none
  progChan := bindChannels.c0
  progAddr := Config.bindAddress
  validSeen := false
  decodedSeen := false
  vals := none
  result := .nothing
  commands := [.setAddress Config.bindAddress, .setChannel bindChannels.c0]
  requests := []

/-- The machine before the first RESET: "not reset" (R251). No meaning reads a register here
(log entry 3), so the values the fields hold stand for no value. -/
def State.powerUp : State :=
  { State.reset with resetDone := false, commands := [] }

end Sys2Proof.Machine
end

