-- ==== Sys2Proof/Syntax.lean ====
section
/-! DEFINITION. The instructions: one constructor for each row of spec/opcode_table.json, in the table's order.
The CMD8 rows are the operations a host can send (spec/30_encoding.md R71, R72). The TICKSEL3, ADDR8, FRAME80
and INTERNAL rows are the cases and sub-operations that a TICK or a DERIVE_HOP_TABLE is made of (R70). -/

namespace Sys2Proof

/-- One constructor for each row of the opcode table. `now` is the time input of the operation (R72); of a
sub-operation, the time of the TICK it runs in. -/
inductive Instr where
  -- CMD8: operations (R71)
  | reset (now : Nat)
  | tick (pend : Bool) (now : Nat) (frames : List Frame)
  | checksum (f : Frame)
  | validate (f : Frame)
  | isBindMarker (f : Frame)
  | decodeControls (f : Frame)
  | deriveHopTable (a : Byte)
  | fold8 (v : Byte)
  | fold6 (v : Byte)
  -- CMD8: reserved command bytes (R82); `cmd` is the whole command byte
  | reservedOpc9 (cmd : Byte)
  | reservedOpcAB (cmd : Byte)
  | reservedOpcCF (cmd : Byte)
  | reservedBit5 (cmd : Byte)
  | reservedBit6 (cmd : Byte)
  | reservedBit7 (cmd : Byte)
  | reservedPendNotTick (cmd : Byte)
  -- TICKSEL3: the cases of TICK (R77)
  | tickNbStay (now : Nat)
  | tickNbHop (now : Nat)
  | tickNbDrain (now : Nat) (frames : List Frame)
  | tickWsIdle (now : Nat)
  | tickWsDrain (now : Nat) (frames : List Frame)
  | tickBdStay (now : Nat)
  | tickBdRevert (now : Nat)
  | tickBdDrain (now : Nat) (frames : List Frame)
  | tickReservedPstate3 (pend : Bool) (now : Nat) (frames : List Frame)
  -- ADDR8: the cases of DERIVE_HOP_TABLE (R76); `a` is the whole address byte
  | hopR1Special6 (a : Byte)
  | hopR1 (a : Byte)
  | hopR2Special16 (a : Byte)
  | hopR2 (a : Byte)
  | hopR3A (a : Byte)
  | hopR3B (a : Byte)
  | hopFixed1E (a : Byte)
  | hopFixed1F (a : Byte)
  -- FRAME80: what a drain does with one frame (R74)
  | frameInvalid (f : Frame)
  | frameNbBind (now : Nat) (f : Frame)
  | frameNbOther (f : Frame)
  | frameWsValid (now : Nat) (f : Frame)
  | frameBdBind (f : Frame)
  | frameBdControl (now : Nat) (f : Frame)
  -- INTERNAL: the index steps (R153, R154)
  | hopAdvance
  | bindChannelAdvance
  deriving DecidableEq, Repr

end Sys2Proof
end

