-- ==== Sys2Proof/WellFormed.lean ====
section
/-! DEFINITION. Which terms of Instr stand for a word of their row: the operands the row's encoding can carry
(spec/30_encoding.md R71, R72, R74, R76, R82; the masks of spec/opcode_table.json). -/

namespace Sys2Proof

/-- NFR is an 8-bit frame count (R72). -/
def fitsNfr (frames : List Frame) : Bool :=
  frames.length < 256

/-- The bits of a value under a mask are the match of an opcode-table row. -/
def maskMatches (mask pattern b : Byte) : Bool :=
  b &&& mask == pattern

/-- The operands of an instruction are ones its encoding can carry. A command byte that several reserved rows
match belongs to the first of them (log entry 11); an address byte to the first row of R76. -/
def wellFormed (i : Instr) : Bool :=
  match i with
  | .reset _ => true
  | .tick _ _ frames => fitsNfr frames
  | .checksum _ => true
  | .validate _ => true
  | .isBindMarker _ => true
  | .decodeControls _ => true
  | .deriveHopTable _ => true
  | .fold8 _ => true
  | .fold6 _ => true
  | .reservedOpc9 cmd => maskMatches 0x0F 0x09 cmd
  | .reservedOpcAB cmd => maskMatches 0x0E 0x0A cmd
  | .reservedOpcCF cmd => maskMatches 0x0C 0x0C cmd
  | .reservedBit5 cmd => maskMatches 0x20 0x20 cmd && (cmd &&& 0x0F).toNat ≤ 8
  | .reservedBit6 cmd => maskMatches 0x60 0x40 cmd && (cmd &&& 0x0F).toNat ≤ 8
  | .reservedBit7 cmd => maskMatches 0xE0 0x80 cmd && (cmd &&& 0x0F).toNat ≤ 8
  | .reservedPendNotTick cmd =>
    maskMatches 0xF0 0x10 cmd && (cmd &&& 0x0F).toNat ≤ 8 && !maskMatches 0x0F 0x01 cmd
  | .tickNbStay _ => true
  | .tickNbHop _ => true
  | .tickNbDrain _ frames => fitsNfr frames
  | .tickWsIdle _ => true
  | .tickWsDrain _ frames => fitsNfr frames
  | .tickBdStay _ => true
  | .tickBdRevert _ => true
  | .tickBdDrain _ frames => fitsNfr frames
  | .tickReservedPstate3 _ _ frames => fitsNfr frames
  | .hopR1Special6 a => maskMatches 0x1F 0x06 a
  | .hopR1 a => maskMatches 0x10 0x00 a && !maskMatches 0x1F 0x06 a
  | .hopR2Special16 a => maskMatches 0x1F 0x16 a
  | .hopR2 a => maskMatches 0x18 0x10 a && !maskMatches 0x1F 0x16 a
  | .hopR3A a => maskMatches 0x1C 0x18 a
  | .hopR3B a => maskMatches 0x1E 0x1C a
  | .hopFixed1E a => maskMatches 0x1F 0x1E a
  | .hopFixed1F a => maskMatches 0x1F 0x1F a
  | .frameInvalid f => !Machine.validate f
  | .frameNbBind _ f => Machine.validate f && Machine.isBindMarker f
  | .frameNbOther f => Machine.validate f && !Machine.isBindMarker f
  | .frameWsValid _ f => Machine.validate f
  | .frameBdBind f => Machine.validate f && Machine.isBindMarker f
  | .frameBdControl _ f => Machine.validate f && !Machine.isBindMarker f
  | .hopAdvance => true
  | .bindChannelAdvance => true

end Sys2Proof
end

