-- ==== Sys2Proof/Decode.lean ====
section
/-! DEFINITION. The four kinds of word the block decodes (spec/30_encoding.md R70): the command byte with its
operands (R71, R72), the TICK case selector (R77), the address seed (R76) and the frame (R73, R74). Decoding is
total and rejects by name; the encoder stands after it. -/

namespace Sys2Proof

open Sys2Proof.Machine

/-- A row of an opcode table: the value it gives, chosen where the bits under `mask` are `pattern`. -/
structure MaskRow (α : Type) where
  mask    : Byte
  pattern : Byte
  row     : α
  deriving DecidableEq, Repr

/-- The row of the first entry that a byte matches. -/
def firstMatch {α : Type} (rows : List (MaskRow α)) (b : Byte) : Option α :=
  (rows.find? fun r => maskMatches r.mask r.pattern b).map MaskRow.row

/-! ### Command byte (R71, R82) -/

/-- The CMD8 rows of the opcode table. -/
inductive CommandRow where
  | reset
  | tick
  | checksum
  | validate
  | isBindMarker
  | decodeControls
  | deriveHopTable
  | fold8
  | fold6
  | opc9
  | opcAB
  | opcCF
  | bit5
  | bit6
  | bit7
  | pendNotTick
  deriving DecidableEq, Repr

/-- The masks and matches of the CMD8 rows, in the order of the opcode table (log entry 11). -/
def commandRows : List (MaskRow CommandRow) :=
  [⟨0xFF, 0x00, .reset⟩, ⟨0xEF, 0x01, .tick⟩, ⟨0xFF, 0x02, .checksum⟩, ⟨0xFF, 0x03, .validate⟩,
   ⟨0xFF, 0x04, .isBindMarker⟩, ⟨0xFF, 0x05, .decodeControls⟩, ⟨0xFF, 0x06, .deriveHopTable⟩,
   ⟨0xFF, 0x07, .fold8⟩, ⟨0xFF, 0x08, .fold6⟩, ⟨0x0F, 0x09, .opc9⟩, ⟨0x0E, 0x0A, .opcAB⟩,
   ⟨0x0C, 0x0C, .opcCF⟩, ⟨0x20, 0x20, .bit5⟩, ⟨0x40, 0x40, .bit6⟩, ⟨0x80, 0x80, .bit7⟩]

/-- The row of a command byte. What no other row matches has PEND = 1, an OPC other than 1 and nothing reserved
set: RESERVED.PEND_NOT_TICK, "likewise any OPC other than 0x1" (R82 and the row's note). -/
def commandRow (cmd : Byte) : CommandRow :=
  (firstMatch commandRows cmd).getD .pendNotTick

/-- PEND is cmd[4] (R71). -/
def pendBit (cmd : Byte) : Bool :=
  cmd.getLsbD 4

/-! ### Frames (R73, R83) -/

/-- Exactly `n` frames of 10 bytes, f[0] first; none for any other number of bytes (R55, R83). -/
def readFrames : Nat → List Byte → Option (List Frame)
  | 0, [] => some []
  | 0, _ :: _ => none
  | n + 1, b0 :: b1 :: b2 :: b3 :: b4 :: b5 :: b6 :: b7 :: b8 :: b9 :: rest =>
    (readFrames n rest).map (⟨b0, b1, b2, b3, b4, b5, b6, b7, b8, b9⟩ :: ·)
  | _ + 1, _ => none

/-- The bytes of a batch in FIFO order. -/
def writeFrames : List Frame → List Byte
  | [] => []
  | f :: fs => f.toBytes ++ writeFrames fs

/-- The one-frame operand of a transaction. A frame of any other length is refused (R55, R82). -/
def withFrame (mk : Frame → Instr) (operands : List Byte) : Except Refusal Instr :=
  match readFrames 1 operands with
  | some [f] => .ok (mk f)
  | _ => .error .badFrameLength

/-- The one-byte operand of a transaction (R72; log entry 12). -/
def withByte (mk : Byte → Instr) (operands : List Byte) : Except Refusal Instr :=
  match operands with
  | [] => .error .missingOperand
  | [b] => .ok (mk b)
  | _ :: _ :: _ => .error .trailingBytes

/-- A transaction without operand bytes (R72; log entry 12). -/
def withNothing (i : Instr) (operands : List Byte) : Except Refusal Instr :=
  match operands with
  | [] => .ok i
  | _ :: _ => .error .trailingBytes

/-- NFR and then NFR frames (R72, R83). -/
def withBatch (mk : List Frame → Instr) (operands : List Byte) : Except Refusal Instr :=
  match operands with
  | [] => .error .missingOperand
  | nfr :: bytes =>
    match readFrames nfr.toNat bytes with
    | some frames => .ok (mk frames)
    | none => .error .badFrameLength

/-- The instruction of a host transaction: the command byte and its operands (R71, R72, R83). The bytes after a
reserved command byte have no meaning and are not looked at (log entry 12). -/
def decodeTransaction (now : Nat) (bytes : List Byte) : Except Refusal Instr :=
  match bytes with
  | [] => .error .emptyTransaction
  | cmd :: operands =>
    match commandRow cmd with
    | .reset => withNothing (.reset now) operands
    | .tick => withBatch (.tick (pendBit cmd) now) operands
    | .checksum => withFrame .checksum operands
    | .validate => withFrame .validate operands
    | .isBindMarker => withFrame .isBindMarker operands
    | .decodeControls => withFrame .decodeControls operands
    | .deriveHopTable => withByte .deriveHopTable operands
    | .fold8 => withByte .fold8 operands
    | .fold6 => withByte .fold6 operands
    | .opc9 => .ok (.reservedOpc9 cmd)
    | .opcAB => .ok (.reservedOpcAB cmd)
    | .opcCF => .ok (.reservedOpcCF cmd)
    | .bit5 => .ok (.reservedBit5 cmd)
    | .bit6 => .ok (.reservedBit6 cmd)
    | .bit7 => .ok (.reservedBit7 cmd)
    | .pendNotTick => .ok (.reservedPendNotTick cmd)

/-- How many bytes a transaction has: one command byte, then its operands (R72, R83). -/
def transactionLength (bytes : List Byte) : Nat :=
  match bytes with
  | [] => 0
  | cmd :: operands =>
    match commandRow cmd with
    | .tick => 2 + 10 * (operands.headD 0).toNat
    | .checksum | .validate | .isBindMarker | .decodeControls => 11
    | .deriveHopTable | .fold8 | .fold6 => 2
    | .reset | .opc9 | .opcAB | .opcCF | .bit5 | .bit6 | .bit7 | .pendNotTick => 1

/-! ### TICK case selector (R77, R173) -/

/-- The rows of the TICK case selector. -/
inductive TickCase where
  | nbStay
  | nbHop
  | nbDrain
  | wsIdle
  | wsDrain
  | bdStay
  | bdRevert
  | bdDrain
  | reservedPstate3
  deriving DecidableEq, Repr

/-- The encoding of PSTATE (R23). -/
def pstateBits (p : PState) : BitVec 2 :=
  match p with
  | .noBind => 0
  | .waitFirstSynchro => 1
  | .bound => 2
  | .reserved => 3

/-- The PSTATE of a 2-bit encoding (R23). -/
def pstateOfBits (b : BitVec 2) : PState :=
  if b = 0 then .noBind else if b = 1 then .waitFirstSynchro else if b = 2 then .bound else .reserved

/-- `sel = PSTATE[1:0] : PEND`, PEND in bit 0 (R77). -/
def selectorWord (p : PState) (pend : Bool) : BitVec 3 :=
  pstateBits p ++ BitVec.ofBool pend

/-- The case a selector and the elapsed time choose (R77). -/
def selectorCase (sel : BitVec 3) (elapsed : Nat) : TickCase :=
  match pstateOfBits (sel.extractLsb' 1 2), sel.getLsbD 0 with
  | .noBind, false => if bindDwellMs ≤ elapsed then .nbHop else .nbStay
  | .noBind, true => .nbDrain
  | .waitFirstSynchro, false => .wsIdle
  | .waitFirstSynchro, true => .wsDrain
  | .bound, false => if signalLossMs ≤ elapsed then .bdRevert else .bdStay
  | .bound, true => .bdDrain
  | .reserved, _ => .reservedPstate3

/-- An idle case takes no frames (R172). -/
def withoutFrames (i : Instr) (frames : List Frame) : Except Refusal Instr :=
  match frames with
  | [] => .ok i
  | _ :: _ => .error .framesWithoutPend

/-- The TICK-case row of a selector word, with the operands of the TICK it belongs to. -/
def decodeSelector (sel : BitVec 3) (elapsed now : Nat) (frames : List Frame) : Except Refusal Instr :=
  match selectorCase sel elapsed with
  | .nbStay => withoutFrames (.tickNbStay now) frames
  | .nbHop => withoutFrames (.tickNbHop now) frames
  | .nbDrain => .ok (.tickNbDrain now frames)
  | .wsIdle => withoutFrames (.tickWsIdle now) frames
  | .wsDrain => .ok (.tickWsDrain now frames)
  | .bdStay => withoutFrames (.tickBdStay now) frames
  | .bdRevert => withoutFrames (.tickBdRevert now) frames
  | .bdDrain => .ok (.tickBdDrain now frames)
  | .reservedPstate3 => .ok (.tickReservedPstate3 (sel.getLsbD 0) now frames)

/-! ### Address seed (R76) -/

/-- The rows of the address-seed case map. -/
inductive HopCase where
  | r1Special6
  | r1
  | r2Special16
  | r2
  | r3A
  | r3B
  | fixed1E
  | fixed1F
  deriving DecidableEq, Repr

/-- The masks and matches of R76 in priority order; "a decoder takes the first row that matches". -/
def seedRows : List (MaskRow HopCase) :=
  [⟨0x1F, 0x06, .r1Special6⟩, ⟨0x10, 0x00, .r1⟩, ⟨0x1F, 0x16, .r2Special16⟩, ⟨0x18, 0x10, .r2⟩,
   ⟨0x1C, 0x18, .r3A⟩, ⟨0x1E, 0x1C, .r3B⟩, ⟨0x1F, 0x1E, .fixed1E⟩]

/-- The case of an address byte; what no earlier row matches is row 8 (R76). -/
def hopCase (a : Byte) : HopCase :=
  (firstMatch seedRows a).getD .fixed1F

/-- The hop-case row of an address byte. -/
def decodeSeed (a : Byte) : Instr :=
  match hopCase a with
  | .r1Special6 => .hopR1Special6 a
  | .r1 => .hopR1 a
  | .r2Special16 => .hopR2Special16 a
  | .r2 => .hopR2 a
  | .r3A => .hopR3A a
  | .r3B => .hopR3B a
  | .fixed1E => .hopFixed1E a
  | .fixed1F => .hopFixed1F a

/-! ### Frame class (R74, R178, R179, R182, R188) -/

/-- The frame rows of the opcode table. -/
inductive FrameRow where
  | invalid
  | nbBind
  | nbOther
  | wsValid
  | bdBind
  | bdControl
  deriving DecidableEq, Repr

/-- What a frame is in a drain that began in a given PSTATE; a valid frame has no row in PSTATE = 3, which
runs no drain (R190). -/
def frameRow (p : PState) (f : Frame) : Option FrameRow :=
  match frameClass f, p with
  | .invalid, _ => some .invalid
  | .bind, .noBind => some .nbBind
  | .control, .noBind => some .nbOther
  | .bind, .waitFirstSynchro => some .wsValid
  | .control, .waitFirstSynchro => some .wsValid
  | .bind, .bound => some .bdBind
  | .control, .bound => some .bdControl
  | .bind, .reserved => none
  | .control, .reserved => none

/-- The frame row of ten bytes read in a PSTATE at the time of a TICK. -/
def decodeFrame (p : PState) (now : Nat) (bytes : List Byte) : Except Refusal Instr :=
  match readFrames 1 bytes with
  | some [f] =>
    match frameRow p f with
    | some .invalid => .ok (.frameInvalid f)
    | some .nbBind => .ok (.frameNbBind now f)
    | some .nbOther => .ok (.frameNbOther f)
    | some .wsValid => .ok (.frameWsValid now f)
    | some .bdBind => .ok (.frameBdBind f)
    | some .bdControl => .ok (.frameBdControl now f)
    | none => .error .notSelected
  | _ => .error .badFrameLength

/-! ### Decoding and encoding -/

/-- The four kinds of word (R70), each with what stands beside it when it is decoded. -/
inductive EncodedWord where
  | transaction (now : Nat) (bytes : List Byte)
  | selector (sel : BitVec 3) (elapsed now : Nat) (frames : List Frame)
  | seed (a : Byte)
  | frame (p : PState) (now : Nat) (bytes : List Byte)
  deriving DecidableEq, Repr

/-- The instruction of a word. -/
def decode (w : EncodedWord) : Except Refusal Instr :=
  match w with
  | .transaction now bytes => decodeTransaction now bytes
  | .selector sel elapsed now frames => decodeSelector sel elapsed now frames
  | .seed a => .ok (decodeSeed a)
  | .frame p now bytes => decodeFrame p now bytes

/-- A TICK's command byte: 0x01 when idle, 0x11 when pending (R71). -/
def tickByte (pend : Bool) : Byte :=
  if pend then 0x11 else 0x01

/-- NFR and the frames of a batch (R72). -/
def batchBytes (frames : List Frame) : List Byte :=
  BitVec.ofNat 8 frames.length :: writeFrames frames

/-- A word of each instruction; none for the INTERNAL rows, which "have no encoding" (R70). A case that tests
the elapsed time is given the least time that selects it. -/
def encode (i : Instr) : Option EncodedWord :=
  match i with
  | .reset now => some (.transaction now [0x00])
  | .tick pend now frames => some (.transaction now (tickByte pend :: batchBytes frames))
  | .checksum f => some (.transaction 0 (0x02 :: f.toBytes))
  | .validate f => some (.transaction 0 (0x03 :: f.toBytes))
  | .isBindMarker f => some (.transaction 0 (0x04 :: f.toBytes))
  | .decodeControls f => some (.transaction 0 (0x05 :: f.toBytes))
  | .deriveHopTable a => some (.transaction 0 [0x06, a])
  | .fold8 v => some (.transaction 0 [0x07, v])
  | .fold6 v => some (.transaction 0 [0x08, v])
  | .reservedOpc9 cmd => some (.transaction 0 [cmd])
  | .reservedOpcAB cmd => some (.transaction 0 [cmd])
  | .reservedOpcCF cmd => some (.transaction 0 [cmd])
  | .reservedBit5 cmd => some (.transaction 0 [cmd])
  | .reservedBit6 cmd => some (.transaction 0 [cmd])
  | .reservedBit7 cmd => some (.transaction 0 [cmd])
  | .reservedPendNotTick cmd => some (.transaction 0 [cmd])
  | .tickNbStay now => some (.selector 0b000 0 now [])
  | .tickNbHop now => some (.selector 0b000 bindDwellMs now [])
  | .tickNbDrain now frames => some (.selector 0b001 0 now frames)
  | .tickWsIdle now => some (.selector 0b010 0 now [])
  | .tickWsDrain now frames => some (.selector 0b011 0 now frames)
  | .tickBdStay now => some (.selector 0b100 0 now [])
  | .tickBdRevert now => some (.selector 0b100 signalLossMs now [])
  | .tickBdDrain now frames => some (.selector 0b101 0 now frames)
  | .tickReservedPstate3 pend now frames => some (.selector (selectorWord .reserved pend) 0 now frames)
  | .hopR1Special6 a => some (.seed a)
  | .hopR1 a => some (.seed a)
  | .hopR2Special16 a => some (.seed a)
  | .hopR2 a => some (.seed a)
  | .hopR3A a => some (.seed a)
  | .hopR3B a => some (.seed a)
  | .hopFixed1E a => some (.seed a)
  | .hopFixed1F a => some (.seed a)
  | .frameInvalid f => some (.frame .noBind 0 f.toBytes)
  | .frameNbBind now f => some (.frame .noBind now f.toBytes)
  | .frameNbOther f => some (.frame .noBind 0 f.toBytes)
  | .frameWsValid now f => some (.frame .waitFirstSynchro now f.toBytes)
  | .frameBdBind f => some (.frame .bound 0 f.toBytes)
  | .frameBdControl now f => some (.frame .bound now f.toBytes)
  | .hopAdvance => none
  | .bindChannelAdvance => none

/-! ### Pseudo-instructions (R85) -/

/-- `CTRL(b0,...,b8)`: the nine bytes followed by their checksum (R85). -/
def ctrlFrame (b0 b1 b2 b3 b4 b5 b6 b7 b8 : Byte) : Frame :=
  let f : Frame := ⟨b0, b1, b2, b3, b4, b5, b6, b7, b8, 0⟩
  { f with f9 := checksum f }

/-- `BINDF(a0,a1,a2,a3,a4)`: the address reversed, the marker, the spec's filler and the checksum (R85). -/
def bindFrameOf (a : Address) : Frame :=
  ctrlFrame a.a4 a.a3 a.a2 a.a1 a.a0 0xAA 0xAA 0xAA 0x00

/-- `IDLE t=<t>`: a TICK with PEND = 0 and no frames (R85). -/
def idle (now : Nat) : Instr :=
  .tick false now []

/-! ### Words numbered as the opcode table numbers them -/

/-- The `n` bytes of a number, bits 7..0 first. -/
def bytesOf : Nat → Nat → List Byte
  | 0, _ => []
  | n + 1, w => BitVec.ofNat 8 w :: bytesOf n (w / 256)

/-- The first `n` bytes of a list, continued with zero bytes. -/
def takePadded : Nat → List Byte → List Byte
  | 0, _ => []
  | n + 1, [] => 0 :: takePadded n []
  | n + 1, b :: bs => b :: takePadded n bs

/-- The transaction whose first `nbits` bits are `w` and whose other bits are 0, as long as its command byte and
its NFR byte make it. -/
def transactionOfWord (nbits w : Nat) : List Byte :=
  let bytes := bytesOf ((nbits + 7) / 8) w
  takePadded (transactionLength bytes) bytes

/-- The instruction the decoder reads from the transaction whose first bits are `w`, at time 0 (log entry 14). -/
def decodeTableWord (nbits w : Nat) : Option Instr :=
  match decodeTransaction 0 (transactionOfWord nbits w) with
  | .ok i => some i
  | .error _ => none

end Sys2Proof
end

