-- ==== Sys2Proof/Machine/HopTables.lean ====
section
/-! DEFINITION. The hop tables of spec/42_hop_scheduler.md: the table of each case of the address-seed map (R142 to
R148) and the map itself (R141). Combinational: no register is read or written (R140). -/

namespace Sys2Proof.Machine

open Sys2Proof

/-- The offset `low5 & 0x07` of rows 2 and 3 (R81, R144, R146). -/
def lowThree (a : Byte) : Byte :=
  low5 a &&& 0x07

/-- The table of one case for an address byte. -/
def hopCaseTable (c : HopCase) (a : Byte) : ChannelTable :=
  match c with
  -- R143: the offset is 7, not 6
  | .r1Special6 => base1.addOffset 0x07
  -- R142
  | .r1 => base1.addOffset (low5 a)
  -- R145: HOP.R2, then hop[0] and hop[1] each increased by 1
  | .r2Special16 =>
    let t := base2.addOffset (lowThree a)
    { t with c0 := t.c0 + 1, c1 := t.c1 + 1 }
  -- R144
  | .r2 => base2.addOffset (lowThree a)
  -- R146
  | .r3A => base3.addOffset (lowThree a)
  | .r3B => base3.addOffset (lowThree a)
  -- R147
  | .fixed1E => hopFixed1E
  -- R148
  | .fixed1F => hopFixed1F

/-- DERIVE_HOP_TABLE (R141): the table of the case that the address byte selects. -/
def deriveHopTable (a : Byte) : ChannelTable :=
  hopCaseTable (hopCase a) a

end Sys2Proof.Machine
end

