-- ==== Sys2Proof/Machine/Ops.lean ====
section
/-! DEFINITION. The named operations over the registers, shared by all meanings: emitting commands, reporting
results, the checks of a TICK, the index steps, the bind and the revert. The block takes no exception and returns
from none (spec/60_exceptions.md R220, R225, R227), so no operation does. -/

namespace Sys2Proof.Machine

open Sys2Proof

/-- What a meaning answers. -/
abbrev Answer := Host.Outcome State Fault Refusal

/-! ### Outputs -/

/-- `emit C`: the command goes to the end of the sequence; SetChannel and SetAddress also write their mirror
(R174, R30, R31). -/
def State.emit (s : State) (c : Command) : State :=
  match c with
  | .setAddress a => { s with progAddr := a, commands := s.commands ++ [c] }
  | .setChannel ch => { s with progChan := ch, commands := s.commands ++ [c] }
  | .flushRx => { s with commands := s.commands ++ [c] }
  | .clearRxFlag => { s with commands := s.commands ++ [c] }

/-- The result of an operation (R72). -/
def State.report (s : State) (r : OpResult) : State :=
  { s with result := r }

/-- The status a TICK returns (R79). -/
def State.returnStatus (s : State) (st : Status) : State :=
  s.report (.status st)

/-- An operation starts with no result and an empty command sequence (R72, R174; log entry 8). -/
def State.beginOperation (s : State) : State :=
  { s with result := .nothing, commands := [] }

/-- The working state of a drain, cleared (R34; log entry 7). -/
def State.clearWorking (s : State) : State :=
  { s with validSeen := false, decodedSeen := false, vals := none }

/-- A unit of the codec or the scheduler answers its result and touches no register (R71, R100). -/
def State.unitResult (s : State) (r : OpResult) : State :=
  s.beginOperation.report r

/-- The numeric status code (R79). -/
def statusCode (st : Status) : BitVec 2 :=
  match st with
  | .boundNewValues => 0
  | .boundNoValues => 1
  | .notBound => 2
  | .bindInProgress => 3

/-- The numeric command code (R80). -/
def commandCode (c : Command) : BitVec 2 :=
  match c with
  | .setAddress _ => 0
  | .setChannel _ => 1
  | .flushRx => 2
  | .clearRxFlag => 3

/-! ### Checks of a TICK (R172, R226) -/

/-- A receive queue of RXQ_DEPTH holds so many frames (R62). An empty batch fits every depth, since a depth is
positive (R6). -/
def queueHolds (n : Nat) : Bool :=
  match n with
  | 0 => true
  | k + 1 =>
    match Config.rxqDepth with
    | .unbounded => true
    | .bounded beyondFirst => k ≤ beyondFirst

/-- RESET has run and the time does not go back (R172); what every part of a TICK rests on. -/
def clockRefusal (now : Nat) (s : State) : Option Refusal :=
  if s.resetDone = false then some .noReset
  else if now < s.lastTs then some .timeBackwards
  else none

/-- The refusal of a TICK, if any of R172's conditions fails. "When several hold, the model may report any one"
(R224; log entry 13). A frame is 10 bytes by its type: R172's length condition is decoding's. -/
def tickRefusal (pend : Bool) (now : Nat) (frames : List Frame) (s : State) : Option Refusal :=
  match clockRefusal now s with
  | some r => some r
  | none =>
    if pend = false ∧ frames ≠ [] then some .framesWithoutPend
    else if queueHolds frames.length = false then some .queueOverflow
    else none

/-! ### Index steps (spec/42_hop_scheduler.md section 3) -/

/-- HOP_ADVANCE (R153): `HOP_IDX <- (HOP_IDX + 1) mod 4`, then SetChannel of that entry. -/
def stepHopIndex (s : State) : State :=
  let idx := s.hopIdx + 1
  { s with hopIdx := idx }.emit (.setChannel (s.hopTable.get idx))

/-- BIND_CHANNEL_ADVANCE (R154): `BIND_IDX <- (BIND_IDX + 1) mod 4`, then SetChannel of that bind channel. -/
def stepBindIndex (s : State) : State :=
  let idx := s.bindIdx + 1
  { s with bindIdx := idx }.emit (.setChannel (bindChannels.get idx))

/-! ### Transitions of the state machine -/

/-- BIND(f) (R178), in the source's order. BIND_IDX and OUT are unchanged. -/
def bindTo (now : Nat) (f : Frame) (s : State) : State :=
  let addr := f.address
  let table := deriveHopTable addr.a0
  let s := { s with txAddr := addr }.emit (.setAddress addr)
  let s := { s with hopTable := table, hopIdx := 0 }.emit (.setChannel table.c0)
  { s with lastTs := now, pstate := .waitFirstSynchro }

/-- The bind frame of a NO_BIND drain: BIND(f), FlushRx, ClearRxFlag, BIND_IN_PROGRESS (R177, R178; log
entry 10). -/
def nbBindFrame (now : Nat) (f : Frame) (s : State) : State :=
  (((bindTo now f s).emit .flushRx).emit .clearRxFlag).returnStatus .bindInProgress

/-- A checksum-valid frame in WAIT_FIRST_SYNCHRO, content ignored (R182). -/
def wsValidFrame (now : Nat) (s : State) : State :=
  { s with validSeen := true, pstate := .bound, lastTs := now }

/-- A valid bind-marker frame in BOUND: counted, not decoded, LAST_TS not written (R188). -/
def bdBindFrame (s : State) : State :=
  { s with validSeen := true }

/-- A control frame in BOUND (R188). -/
def bdControlFrame (now : Nat) (f : Frame) (s : State) : State :=
  { s with validSeen := true, vals := some (decodeControls f), decodedSeen := true, lastTs := now }

/-- The signal-loss revert to the bind-search defaults (R186). -/
def revertToSearch (now : Nat) (s : State) : State :=
  let s := s.emit (.setAddress Config.bindAddress)
  let s := { s with bindIdx := 0 }.emit (.setChannel bindChannels.c0)
  { s with lastTs := now, pstate := .noBind }

/-- `if valid_seen = 1: HOP_ADVANCE` (R181, R187). -/
def advanceIfValid (s : State) : State :=
  if s.validSeen then stepHopIndex s else s

/-! ### Host requests -/

/-- The oldest request of the host, and the state without it (log entry 1). -/
def takeRequest (s : State) : Option (Request × State) :=
  match s.requests with
  | [] => none
  | r :: rest => some (r, { s with requests := rest })

/-- The host reads OUT (R29; log entry 16). The spec states the fault: "a model read of OUT before the first
BOUND_NEW_VALUES faults" (R38), under the reason `out_unwritten` (R226). -/
def readOut (s : State) : Answer :=
  match s.out with
  | none => .fault .outUnwritten
  | some r => .next (s.unitResult (.record r))

end Sys2Proof.Machine
end

