-- ==== Sys2Proof/Machine/Codec.lean ====
section
/-! DEFINITION. The meanings of the frame-codec operations CHECKSUM, VALIDATE, IS_BIND_MARKER, DECODE, FOLD8 and FOLD6
(spec/41_frame_codec.md). None reads or writes a block register (R100). -/

namespace Sys2Proof.Machine

open Sys2Proof

/-- CHECKSUM (R101). -/
def execChecksum (f : Frame) (s : State) : Answer :=
  .next (s.unitResult (.checksum (checksum f)))

/-- VALIDATE (R103). -/
def execValidate (f : Frame) (s : State) : Answer :=
  .next (s.unitResult (.bit (validate f)))

/-- IS_BIND_MARKER (R104). -/
def execIsBindMarker (f : Frame) (s : State) : Answer :=
  .next (s.unitResult (.bit (isBindMarker f)))

/-- DECODE: the fields of any frame, in the layout of R78 (R105, R110). -/
def execDecodeControls (f : Frame) (s : State) : Answer :=
  .next (s.unitResult (.record (decodeControls f)))

/-- FOLD8 (R106). -/
def execFold8 (v : Byte) (s : State) : Answer :=
  .next (s.unitResult (.signed (fold8 v)))

/-- FOLD6 (R107). -/
def execFold6 (v : Byte) (s : State) : Answer :=
  .next (s.unitResult (.signed (fold6 v)))

end Sys2Proof.Machine
end

