-- ==== Sys2Proof/Machine/Frames.lean ====
section
/-! DEFINITION. The meanings of the frame rows: what a drain does with one frame (spec/30_encoding.md R74;
spec/43_state_machine.md R178, R179, R182, R188; spec/41_frame_codec.md R112). -/

namespace Sys2Proof.Machine

open Sys2Proof

/-- A frame action, where PSTATE and the frame's class select its row (R74; log entry 9). -/
def runFrameRow (row : FrameRow) (f : Frame) (act : State) (s : State) : Answer :=
  if s.resetDone = false then .refused .noReset
  else if frameRow s.pstate f = some row then .next act
  else .refused .notSelected

/-- A frame action that takes the time of its TICK, which is not below LAST_TS (R172). -/
def runTimedFrameRow (row : FrameRow) (now : Nat) (f : Frame) (act : State) (s : State) : Answer :=
  match clockRefusal now s with
  | some r => .refused r
  | none => runFrameRow row f act s

/-- FRAME.INVALID: discarded in every state, no effect of its own (R74, R112). -/
def execFrameInvalid (f : Frame) (s : State) : Answer :=
  if validate f then .refused .notSelected else .next s

/-- FRAME.NB.BIND (R177, R178; log entry 10). -/
def execFrameNbBind (now : Nat) (f : Frame) (s : State) : Answer :=
  runTimedFrameRow .nbBind now f (nbBindFrame now f s) s

/-- FRAME.NB.OTHER: passed over (R179). -/
def execFrameNbOther (f : Frame) (s : State) : Answer :=
  runFrameRow .nbOther f s s

/-- FRAME.WS.VALID (R182). -/
def execFrameWsValid (now : Nat) (f : Frame) (s : State) : Answer :=
  runTimedFrameRow .wsValid now f (wsValidFrame now s) s

/-- FRAME.BD.BIND (R188). -/
def execFrameBdBind (f : Frame) (s : State) : Answer :=
  runFrameRow .bdBind f (bdBindFrame s) s

/-- FRAME.BD.CONTROL (R188). -/
def execFrameBdControl (now : Nat) (f : Frame) (s : State) : Answer :=
  runTimedFrameRow .bdControl now f (bdControlFrame now f s) s

end Sys2Proof.Machine
end

