-- ==== Sys2Proof/Machine/Hop.lean ====
section
/-! DEFINITION. The meanings of the channel-hop scheduler (spec/42_hop_scheduler.md): DERIVE_HOP_TABLE, its cases, and
the two index steps. -/

namespace Sys2Proof.Machine

open Sys2Proof

/-- DERIVE_HOP_TABLE (R141). -/
def execDeriveHopTable (a : Byte) (s : State) : Answer :=
  .next (s.unitResult (.table (deriveHopTable a)))

/-- A case of DERIVE_HOP_TABLE, where the address byte selects it (R76; log entry 9). -/
def runHopCase (c : HopCase) (a : Byte) (s : State) : Answer :=
  if hopCase a = c then .next (s.unitResult (.table (hopCaseTable c a))) else .refused .notSelected

/-- HOP.R1.SPECIAL6 (R143). -/
def execHopR1Special6 (a : Byte) (s : State) : Answer := runHopCase .r1Special6 a s

/-- HOP.R1 (R142). -/
def execHopR1 (a : Byte) (s : State) : Answer := runHopCase .r1 a s

/-- HOP.R2.SPECIAL16 (R145). -/
def execHopR2Special16 (a : Byte) (s : State) : Answer := runHopCase .r2Special16 a s

/-- HOP.R2 (R144). -/
def execHopR2 (a : Byte) (s : State) : Answer := runHopCase .r2 a s

/-- HOP.R3.A (R146). -/
def execHopR3A (a : Byte) (s : State) : Answer := runHopCase .r3A a s

/-- HOP.R3.B (R146). -/
def execHopR3B (a : Byte) (s : State) : Answer := runHopCase .r3B a s

/-- HOP.FIXED1E (R147). -/
def execHopFixed1E (a : Byte) (s : State) : Answer := runHopCase .fixed1E a s

/-- HOP.FIXED1F (R148). -/
def execHopFixed1F (a : Byte) (s : State) : Answer := runHopCase .fixed1F a s

/-- A sub-operation of a TICK that reads registers; they hold no value before RESET (R191, R251). -/
def runIndexStep (act : State) (s : State) : Answer :=
  if s.resetDone then .next act else .refused .noReset

/-- HOP_ADVANCE (R153). -/
def execHopAdvance (s : State) : Answer := runIndexStep (stepHopIndex s) s

/-- BIND_CHANNEL_ADVANCE (R154). -/
def execBindChannelAdvance (s : State) : Answer := runIndexStep (stepBindIndex s) s

end Sys2Proof.Machine
end

