-- ==== Sys2Proof/Machine/Reserved.lean ====
section
/-! DEFINITION. The reserved command bytes: "refused: no operation; the state is unchanged and the model records a
refusal" (spec/30_encoding.md R82, spec/60_exceptions.md R226). -/

namespace Sys2Proof.Machine

open Sys2Proof

/-- RESERVED.OPC9: reserved_opcode (R82). -/
def execReservedOpc9 (_cmd : Byte) (_s : State) : Answer := .refused .reservedOpcode

/-- RESERVED.OPC_A_B: reserved_opcode (R82). -/
def execReservedOpcAB (_cmd : Byte) (_s : State) : Answer := .refused .reservedOpcode

/-- RESERVED.OPC_C_F: reserved_opcode (R82). -/
def execReservedOpcCF (_cmd : Byte) (_s : State) : Answer := .refused .reservedOpcode

/-- RESERVED.BIT5: reserved_bits (R82). -/
def execReservedBit5 (_cmd : Byte) (_s : State) : Answer := .refused .reservedBits

/-- RESERVED.BIT6: reserved_bits (R82). -/
def execReservedBit6 (_cmd : Byte) (_s : State) : Answer := .refused .reservedBits

/-- RESERVED.BIT7: reserved_bits (R82). -/
def execReservedBit7 (_cmd : Byte) (_s : State) : Answer := .refused .reservedBits

/-- RESERVED.PEND_NOT_TICK: pend_not_tick (R82). -/
def execReservedPendNotTick (_cmd : Byte) (_s : State) : Answer := .refused .pendNotTick

end Sys2Proof.Machine
end

