-- ==== Sys2Proof/Machine/Tick.lean ====
section
/-! DEFINITION. The meanings of RESET, TICK and the cases of TICK (spec/43_state_machine.md). -/

namespace Sys2Proof.Machine

open Sys2Proof

/-- RESET (R170, R38): it may be issued in any state and discards it. It emits SetAddress and SetChannel, and no
FlushRx or ClearRxFlag (R252). -/
def execReset (now : Nat) (s : State) : Answer :=
  let s := s.beginOperation.clearWorking
  let s := { s with
    resetDone := true
    pstate := .noBind
    bindIdx := 0
    hopIdx := 0
    hopTable := ⟨0, 0, 0, 0⟩
    txAddr := ⟨0, 0, 0, 0, 0⟩
    lastTs := now
    out := none }
  .next ((s.emit (.setAddress Config.bindAddress)).emit (.setChannel bindChannels.c0))

/-! ### Drains -/

/-- What a WAIT_FIRST_SYNCHRO drain does with one frame (R181, R182). -/
def wsFrame (now : Nat) (s : State) (f : Frame) : State :=
  if validate f then wsValidFrame now s else s

/-- What a BOUND drain does with one frame (R188). -/
def bdFrame (now : Nat) (s : State) (f : Frame) : State :=
  match frameClass f with
  | .invalid => s
  | .bind => bdBindFrame s
  | .control => bdControlFrame now f s

/-- The NO_BIND drain: up to the first valid bind frame (R177). -/
def nbDrainFrames (now : Nat) : List Frame → State → State
  | [], s => (s.emit .clearRxFlag).returnStatus .notBound
  | f :: fs, s =>
    match frameClass f with
    | .bind => nbBindFrame now f s
    | .control => nbDrainFrames now fs s
    | .invalid => nbDrainFrames now fs s

/-- The end of a BOUND drain: OUT takes the last decoded record (R187, R189). -/
def deliverValues (s : State) : State :=
  if s.decodedSeen then { s with out := s.vals }.returnStatus .boundNewValues
  else s.returnStatus .boundNoValues

/-! ### Cases -/

/-- TICK.NB.STAY (R175). -/
def nbStay (s : State) : State :=
  s.beginOperation.returnStatus .notBound

/-- TICK.NB.HOP (R176). -/
def nbHop (now : Nat) (s : State) : State :=
  let s := stepBindIndex s.beginOperation
  { s with lastTs := now }.returnStatus .notBound

/-- TICK.NB.DRAIN (R177). -/
def nbDrain (now : Nat) (frames : List Frame) (s : State) : State :=
  nbDrainFrames now frames s.beginOperation.clearWorking

/-- TICK.WS.IDLE (R180). -/
def wsIdle (s : State) : State :=
  s.beginOperation.returnStatus .bindInProgress

/-- TICK.WS.DRAIN (R181): ClearRxFlag goes out before the hop advance (R174). -/
def wsDrain (now : Nat) (frames : List Frame) (s : State) : State :=
  let s := frames.foldl (wsFrame now) s.beginOperation.clearWorking
  ((advanceIfValid (s.emit .clearRxFlag)).returnStatus .bindInProgress).clearWorking

/-- TICK.BD.STAY (R185). -/
def bdStay (s : State) : State :=
  s.beginOperation.returnStatus .boundNoValues

/-- TICK.BD.REVERT (R186). -/
def bdRevert (now : Nat) (s : State) : State :=
  (revertToSearch now s.beginOperation).returnStatus .boundNoValues

/-- TICK.BD.DRAIN (R187). -/
def bdDrain (now : Nat) (frames : List Frame) (s : State) : State :=
  let s := frames.foldl (bdFrame now) s.beginOperation.clearWorking
  (deliverValues (advanceIfValid (s.emit .clearRxFlag))).clearWorking

/-! ### Dispatch of a TICK (R173) -/

/-- The case of a TICK: PSTATE and PEND make the selector word, and `elapsed = now - LAST_TS` (R77, R173). -/
def tickCase (pend : Bool) (now : Nat) (s : State) : TickCase :=
  selectorCase (selectorWord s.pstate pend) (now - s.lastTs)

/-- What a case does. PSTATE = 3 is a model fault (R190). -/
def runCase (c : TickCase) (now : Nat) (frames : List Frame) (s : State) : Answer :=
  match c with
  | .nbStay => .next (nbStay s)
  | .nbHop => .next (nbHop now s)
  | .nbDrain => .next (nbDrain now frames s)
  | .wsIdle => .next (wsIdle s)
  | .wsDrain => .next (wsDrain now frames s)
  | .bdStay => .next (bdStay s)
  | .bdRevert => .next (bdRevert now s)
  | .bdDrain => .next (bdDrain now frames s)
  | .reservedPstate3 => .fault .reservedPstate

/-- TICK (R171 to R173): the refusals first (R224), then the one case that the selector picks. -/
def execTick (pend : Bool) (now : Nat) (frames : List Frame) (s : State) : Answer :=
  match tickRefusal pend now frames s with
  | some r => .refused r
  | none => runCase (tickCase pend now s) now frames s

/-- A TICK that must select a given case (log entry 9). -/
def runSelected (c : TickCase) (pend : Bool) (now : Nat) (frames : List Frame) (s : State) : Answer :=
  match tickRefusal pend now frames s with
  | some r => .refused r
  | none => if tickCase pend now s = c then runCase c now frames s else .refused .notSelected

/-- TICK.NB.STAY (R175). -/
def execTickNbStay (now : Nat) (s : State) : Answer := runSelected .nbStay false now [] s

/-- TICK.NB.HOP (R176). -/
def execTickNbHop (now : Nat) (s : State) : Answer := runSelected .nbHop false now [] s

/-- TICK.NB.DRAIN (R177). -/
def execTickNbDrain (now : Nat) (frames : List Frame) (s : State) : Answer :=
  runSelected .nbDrain true now frames s

/-- TICK.WS.IDLE (R180). -/
def execTickWsIdle (now : Nat) (s : State) : Answer := runSelected .wsIdle false now [] s

/-- TICK.WS.DRAIN (R181). -/
def execTickWsDrain (now : Nat) (frames : List Frame) (s : State) : Answer :=
  runSelected .wsDrain true now frames s

/-- TICK.BD.STAY (R185). -/
def execTickBdStay (now : Nat) (s : State) : Answer := runSelected .bdStay false now [] s

/-- TICK.BD.REVERT (R186). -/
def execTickBdRevert (now : Nat) (s : State) : Answer := runSelected .bdRevert false now [] s

/-- TICK.BD.DRAIN (R187). -/
def execTickBdDrain (now : Nat) (frames : List Frame) (s : State) : Answer :=
  runSelected .bdDrain true now frames s

/-- TICK.RESERVED_PSTATE3 (R190). -/
def execTickReservedPstate3 (pend : Bool) (now : Nat) (frames : List Frame) (s : State) : Answer :=
  runSelected .reservedPstate3 pend now frames s

end Sys2Proof.Machine
end

