-- ==== Sys2Proof/Machine/Dispatch.lean ====
section
/-! DEFINITION. One arm for each constructor of Instr, each one call of its meaning. -/

namespace Sys2Proof.Machine

open Sys2Proof

def exec (i : Instr) (s : State) : Host.Outcome State Fault Refusal :=
  match i with
  | .reset now => Sys2Proof.Machine.execReset now s
  | .tick pend now frames => Sys2Proof.Machine.execTick pend now frames s
  | .checksum f => Sys2Proof.Machine.execChecksum f s
  | .validate f => Sys2Proof.Machine.execValidate f s
  | .isBindMarker f => Sys2Proof.Machine.execIsBindMarker f s
  | .decodeControls f => Sys2Proof.Machine.execDecodeControls f s
  | .deriveHopTable a => Sys2Proof.Machine.execDeriveHopTable a s
  | .fold8 v => Sys2Proof.Machine.execFold8 v s
  | .fold6 v => Sys2Proof.Machine.execFold6 v s
  | .reservedOpc9 cmd => Sys2Proof.Machine.execReservedOpc9 cmd s
  | .reservedOpcAB cmd => Sys2Proof.Machine.execReservedOpcAB cmd s
  | .reservedOpcCF cmd => Sys2Proof.Machine.execReservedOpcCF cmd s
  | .reservedBit5 cmd => Sys2Proof.Machine.execReservedBit5 cmd s
  | .reservedBit6 cmd => Sys2Proof.Machine.execReservedBit6 cmd s
  | .reservedBit7 cmd => Sys2Proof.Machine.execReservedBit7 cmd s
  | .reservedPendNotTick cmd => Sys2Proof.Machine.execReservedPendNotTick cmd s
  | .tickNbStay now => Sys2Proof.Machine.execTickNbStay now s
  | .tickNbHop now => Sys2Proof.Machine.execTickNbHop now s
  | .tickNbDrain now frames => Sys2Proof.Machine.execTickNbDrain now frames s
  | .tickWsIdle now => Sys2Proof.Machine.execTickWsIdle now s
  | .tickWsDrain now frames => Sys2Proof.Machine.execTickWsDrain now frames s
  | .tickBdStay now => Sys2Proof.Machine.execTickBdStay now s
  | .tickBdRevert now => Sys2Proof.Machine.execTickBdRevert now s
  | .tickBdDrain now frames => Sys2Proof.Machine.execTickBdDrain now frames s
  | .tickReservedPstate3 pend now frames => Sys2Proof.Machine.execTickReservedPstate3 pend now frames s
  | .hopR1Special6 a => Sys2Proof.Machine.execHopR1Special6 a s
  | .hopR1 a => Sys2Proof.Machine.execHopR1 a s
  | .hopR2Special16 a => Sys2Proof.Machine.execHopR2Special16 a s
  | .hopR2 a => Sys2Proof.Machine.execHopR2 a s
  | .hopR3A a => Sys2Proof.Machine.execHopR3A a s
  | .hopR3B a => Sys2Proof.Machine.execHopR3B a s
  | .hopFixed1E a => Sys2Proof.Machine.execHopFixed1E a s
  | .hopFixed1F a => Sys2Proof.Machine.execHopFixed1F a s
  | .frameInvalid f => Sys2Proof.Machine.execFrameInvalid f s
  | .frameNbBind now f => Sys2Proof.Machine.execFrameNbBind now f s
  | .frameNbOther f => Sys2Proof.Machine.execFrameNbOther f s
  | .frameWsValid now f => Sys2Proof.Machine.execFrameWsValid now f s
  | .frameBdBind f => Sys2Proof.Machine.execFrameBdBind f s
  | .frameBdControl now f => Sys2Proof.Machine.execFrameBdControl now f s
  | .hopAdvance => Sys2Proof.Machine.execHopAdvance s
  | .bindChannelAdvance => Sys2Proof.Machine.execBindChannelAdvance s

end Sys2Proof.Machine
end

