-- ==== Sys2Proof/Machine/Step.lean ====
section
/-! DEFINITION. One step of the machine: one request of the host, run whole (spec/00_scope.md R12,
spec/20_memory.md R56). -/

namespace Sys2Proof.Machine

open Sys2Proof

/-- Take the oldest request, decode it and run it. Without a request "the model has no step" (R237; log entry 15). -/
def step (s : State) : Host.Outcome State Fault Refusal :=
  match takeRequest s with
  | none => .refused .hostIdle
  | some (.readOut, s) => readOut s
  | some (.transaction now bytes, s) =>
    match decode (.transaction now bytes) with
    | .ok i => exec i s
    | .error r => .refused r

/-- The transaction whose first `nbits` bits are `w`, and all other bits 0, stands before the host's requests, at the
earliest time a TICK accepts (log entry 1). -/
def State.withFetchWord (s : State) (nbits w : Nat) : State :=
  { s with requests := .transaction s.lastTs (transactionOfWord nbits w) :: s.requests }

end Sys2Proof.Machine
end

