-- ==== Sys2Proof/Machine/PowerUp.lean ====
section
/-! DEFINITION. The machine from power-up on: "A model therefore starts from 'not reset', not from zeros"
(spec/70_reset_and_hazards.md R251). -/

namespace Sys2Proof.Machine

open Sys2Proof

/-- The machine as it is switched on: RESET has not run, no register holds a value, and a TICK is refused (R251, R191).
Its step is that of the host's interface, which names the state that the first RESET, at time 0, leaves
(log entries 2 and 3). -/
abbrev fromPowerUp : Host.Core where
  State := State
  Fault := Fault
  Refusal := Refusal
  step := step
  reset := State.powerUp

end Sys2Proof.Machine
end

