-- ==== Sys2Proof/Safety.lean ====
section
/-! DEFINITION. The terms claims use: when a TICK is accepted, the invariants of spec/10_state.md R37, and how far one
state may differ from another. -/

namespace Sys2Proof.Machine

open Sys2Proof

/-- The host and the transceiver have done their duties for a TICK: the conditions of R172 (R237). -/
structure TickAccepted (pend : Bool) (now : Nat) (frames : List Frame) (s : State) : Prop where
  resetRan : s.resetDone = true
  timeForward : s.lastTs ≤ now
  pendIfFrames : pend = false → frames = []
  fitsQueue : queueHolds frames.length = true

/-- A valid bind frame: class BIND of R74. -/
def isBindFrame (f : Frame) : Prop :=
  validate f = true ∧ isBindMarker f = true

/-- A valid frame without the marker: class CONTROL of R74. -/
def isControlFrame (f : Frame) : Prop :=
  validate f = true ∧ isBindMarker f = false

/-- The registers of spec/10_state.md section 3 are the same, and the requests the host still has; the working state
(R34), the result and the commands of the operation may differ. -/
structure SameRegisters (s t : State) : Prop where
  resetDone : t.resetDone = s.resetDone
  pstate : t.pstate = s.pstate
  bindIdx : t.bindIdx = s.bindIdx
  hopIdx : t.hopIdx = s.hopIdx
  hopTable : t.hopTable = s.hopTable
  txAddr : t.txAddr = s.txAddr
  lastTs : t.lastTs = s.lastTs
  out : t.out = s.out
  progChan : t.progChan = s.progChan
  progAddr : t.progAddr = s.progAddr
  requests : t.requests = s.requests

/-- An instruction answers a NEXT state, whose registers are those of `regs`, with this result and exactly these
commands in this order (R72, R56). -/
def Completes (answer : Answer) (regs : State) (result : OpResult) (commands : List Command) : Prop :=
  ∃ t, answer = .next t ∧ SameRegisters regs t ∧ t.result = result ∧ t.commands = commands

/-- The block is tuned to the entry of its table that its index names (R37; in the bound states from R178, R153). -/
def tunedToHop (s : State) : Prop :=
  s.hopTable = deriveHopTable s.txAddr.a0 ∧ s.progAddr = s.txAddr ∧ s.progChan = s.hopTable.get s.hopIdx

/-- The block searches at the bind address, on the bind channel its index names (R37). -/
def tunedToSearch (s : State) : Prop :=
  s.progAddr = Config.bindAddress ∧ s.progChan = bindChannels.get s.bindIdx

/-- The invariants of R37 on a state in which RESET has run; that the working state of drains is cleared between
operations is the model's (R34; log entry 7). -/
structure LinkInvariant (s : State) : Prop where
  legalPstate : s.pstate ≠ .reserved
  search : s.pstate = .noBind → tunedToSearch s
  waiting : s.pstate = .waitFirstSynchro → tunedToHop s
  bound : s.pstate = .bound → tunedToHop s
  working : s.validSeen = false ∧ s.decodedSeen = false ∧ s.vals = none

/-- Before RESET the registers hold no value (R251), so nothing is asked of them. -/
def Invariant (s : State) : Prop :=
  s.resetDone = true → LinkInvariant s

/-- A folded axis lies in [-127, 127] and a folded trim in [-31, 31] (R7, R29, R78). -/
structure ControlsInRange (r : Controls) : Prop where
  pitch : -127 ≤ r.pitch.toInt ∧ r.pitch.toInt ≤ 127
  yaw : -127 ≤ r.yaw.toInt ∧ r.yaw.toInt ≤ 127
  roll : -127 ≤ r.roll.toInt ∧ r.roll.toInt ≤ 127
  trimPitch : -31 ≤ r.trimPitch.toInt ∧ r.trimPitch.toInt ≤ 31
  trimYaw : -31 ≤ r.trimYaw.toInt ∧ r.trimYaw.toInt ≤ 31
  trimRoll : -31 ≤ r.trimRoll.toInt ∧ r.trimRoll.toInt ≤ 31

/-- Whatever record OUT or the working record holds is in range. -/
def OutInRange (s : State) : Prop :=
  (∀ r, s.out = some r → ControlsInRange r) ∧ (∀ r, s.vals = some r → ControlsInRange r)

/-- The rows a host can send: the CMD8 rows of the opcode table (R70, R71). -/
def isHostOperation (i : Instr) : Bool :=
  match i with
  | .reset _ | .tick _ _ _ | .checksum _ | .validate _ | .isBindMarker _ | .decodeControls _ | .deriveHopTable _
  | .fold8 _ | .fold6 _ | .reservedOpc9 _ | .reservedOpcAB _ | .reservedOpcCF _ | .reservedBit5 _ | .reservedBit6 _
  | .reservedBit7 _ | .reservedPendNotTick _ => true
  | .tickNbStay _ | .tickNbHop _ | .tickNbDrain _ _ | .tickWsIdle _ | .tickWsDrain _ _ | .tickBdStay _
  | .tickBdRevert _ | .tickBdDrain _ _ | .tickReservedPstate3 _ _ _ | .hopR1Special6 _ | .hopR1 _
  | .hopR2Special16 _ | .hopR2 _ | .hopR3A _ | .hopR3B _ | .hopFixed1E _ | .hopFixed1F _ | .frameInvalid _
  | .frameNbBind _ _ | .frameNbOther _ | .frameWsValid _ _ | .frameBdBind _ | .frameBdControl _ _ | .hopAdvance
  | .bindChannelAdvance => false

/-- Run instructions one after the other, stopping at the first fault or refusal. -/
def runAll : List Instr → State → Answer
  | [], s => .next s
  | i :: is, s =>
    match exec i s with
    | .next t => runAll is t
    | .fault r => .fault r
    | .refused r => .refused r

/-- A channel of some hop table lies in [0x0a, 0x49] (R152). -/
def hopChannel (c : Byte) : Prop :=
  0x0a ≤ c.toNat ∧ c.toNat ≤ 0x49

end Sys2Proof.Machine
end

