-- ==== Sys2Proof/Certificates/Slice0/Obligations.lean ====
section
/-! DEFINITION. The statements for the provers, each from the rules of spec/ it cites. `Completes`, `SameRegisters`,
`TickAccepted`, `Invariant` and the other terms are those of Sys2Proof/Safety.lean. -/

open Sys2Proof Sys2Proof.Machine

/-! ### RESET -/

/-- R170, R38: RESET is command byte 0x00, runs in any state and leaves every register at its reset value. -/
def Obligations.ResetLeavesEveryRegister : Prop :=
  (∀ now, decode (.transaction now [0x00]) = .ok (.reset now)) ∧
  ∀ (now : Nat) (s : State),
    Completes (exec (.reset now) s)
      { s with
        resetDone := true, pstate := .noBind, bindIdx := 0, hopIdx := 0, hopTable := ⟨0, 0, 0, 0⟩
        txAddr := ⟨0, 0, 0, 0, 0⟩, lastTs := now, out := none, progChan := 0x4b
        progAddr := Config.bindAddress }
      .nothing [.setAddress Config.bindAddress, .setChannel 0x4b]

/-- R251, R191: the machine starts not reset. Where RESET has not run every TICK is refused no_reset, no step but that
of a RESET transaction writes a register, and a run without such a transaction stays not reset. That the host's reset
state is the one the first RESET leaves at time 0, and what the model's own fields then hold, are the model's choices
(log entries 2, 3, 7, 8). -/
def Obligations.ResetStateComesFromPowerUp : Prop :=
  (fromPowerUp.reset = State.powerUp ∧ State.powerUp.resetDone = false) ∧
  exec (.reset 0) State.powerUp = .next State.reset ∧
  fromPowerUp.step { State.powerUp with requests := [.transaction 0 [0x00]] } = .next State.reset ∧
  (∀ (s : State) (pend : Bool) (now : Nat) (frames : List Frame), s.resetDone = false →
    exec (.tick pend now frames) s = .refused .noReset) ∧
  (∀ s t : State, s.resetDone = false → step s = .next t →
    SameRegisters { s with requests := t.requests } t ∨
      ∃ now rest, s.requests = .transaction now [0x00] :: rest ∧ t.resetDone = true) ∧
  ∀ (requests : List Request) (k : Nat) (t : State), (∀ now, .transaction now [0x00] ∉ requests) →
    fromPowerUp.run k { State.powerUp with requests := requests } = .next t → t.resetDone = false

/-! ### Frame codec -/

/-- R101: the XOR fold of f[0..8], plus 0x55, modulo 256; no register is written. -/
def Obligations.ChecksumOfFrame : Prop :=
  ∀ (f : Frame) (now : Nat) (s : State),
    decode (.transaction now (0x02 :: f.toBytes)) = .ok (.checksum f) ∧
    ∃ b : Byte, Completes (exec (.checksum f) s) s (.checksum b) [] ∧
      b.toNat = ((f.f0 ^^^ f.f1 ^^^ f.f2 ^^^ f.f3 ^^^ f.f4 ^^^ f.f5 ^^^ f.f6 ^^^ f.f7 ^^^ f.f8).toNat + 0x55) % 256

/-- R102: the checksum depends on f[0..8] only, not on their order, and any single changed byte changes it. -/
def Obligations.ChecksumLaws : Prop :=
  (∀ f g : Frame, f.payload = g.payload → checksum f = checksum g) ∧
  (∀ f g : Frame, f.payload.Perm g.payload → checksum f = checksum g) ∧
  (∀ (f g : Frame) (pre post : List Byte) (a b : Byte), f.payload = pre ++ a :: post → g.payload = pre ++ b :: post →
    a ≠ b → checksum f ≠ checksum g)

/-- R103: VALIDATE answers whether f[9] is the checksum; exactly one value of f[9] validates. -/
def Obligations.ValidateTellsMatch : Prop :=
  ∀ (f : Frame) (now : Nat) (s : State),
    decode (.transaction now (0x03 :: f.toBytes)) = .ok (.validate f) ∧
    Completes (exec (.validate f) s) s (.bit (decide (checksum f = f.f9))) [] ∧
    (∃! b : Byte, validate { f with f9 := b } = true)

/-- R104: IS_BIND_MARKER answers whether bytes 5 and 6 are 0xAA, whatever the other bytes are. -/
def Obligations.BindMarkerTest : Prop :=
  ∀ (f : Frame) (now : Nat) (s : State),
    decode (.transaction now (0x04 :: f.toBytes)) = .ok (.isBindMarker f) ∧
    Completes (exec (.isBindMarker f) s) s (.bit (decide (f.f5 = 0xAA ∧ f.f6 = 0xAA))) []

/-- R106: FOLD8 is `(v >= 128) ? (128 - v) : v`, as an 8-bit two's-complement result that is never -128; DECODE
applies it to f[1], f[2] and f[3]. -/
def Obligations.Fold8IsSignFold : Prop :=
  (∀ (v : Byte) (now : Nat) (s : State),
    decode (.transaction now [0x07, v]) = .ok (.fold8 v) ∧
    ∃ r : Byte, Completes (exec (.fold8 v) s) s (.signed r) [] ∧
      r.toInt = (if 128 ≤ v.toNat then 128 - (v.toNat : Int) else (v.toNat : Int)) ∧ r.toInt ≠ -128) ∧
  ∀ f : Frame, (decodeControls f).pitch = fold8 f.f1 ∧ (decodeControls f).yaw = fold8 f.f2 ∧
    (decodeControls f).roll = fold8 f.f3

/-- R107: FOLD6 reads bits 5:0 only and is `(v >= 32) ? (32 - v) : v`; DECODE applies it to `f[k] & 0x3F`. -/
def Obligations.Fold6IsSignFold : Prop :=
  (∀ (v : Byte) (now : Nat) (s : State),
    decode (.transaction now [0x08, v]) = .ok (.fold6 v) ∧
    ∃ r : Byte, Completes (exec (.fold6 v) s) s (.signed r) [] ∧
      r.toInt = (if 32 ≤ v.toNat % 64 then 32 - ((v.toNat % 64 : Nat) : Int) else ((v.toNat % 64 : Nat) : Int))) ∧
  ∀ f : Frame, (decodeControls f).trimPitch = fold6 (f.f5 &&& 0x3F) ∧
    (decodeControls f).trimYaw = fold6 (f.f6 &&& 0x3F) ∧ (decodeControls f).trimRoll = fold6 (f.f7 &&& 0x3F)

/-- R108: a fold is two-to-one at zero and one-to-one elsewhere (FOLD6 on its six bits). -/
def Obligations.FoldsAreSignMagnitude : Prop :=
  (∀ v : Byte, 128 ≤ v.toNat → (fold8 v).toInt = -((v.toNat : Int) - 128)) ∧
  (∀ v : Byte, 32 ≤ v.toNat → v.toNat < 64 → (fold6 v).toInt = -((v.toNat : Int) - 32)) ∧
  (∀ v : Byte, fold8 v = 0 ↔ v = 0x00 ∨ v = 0x80) ∧
  (∀ v : Byte, v.toNat < 64 → (fold6 v = 0 ↔ v = 0x00 ∨ v = 0x20)) ∧
  (∀ v w : Byte, fold8 v = fold8 w → fold8 v ≠ 0 → v = w) ∧
  (∀ v w : Byte, v.toNat < 64 → w.toNat < 64 → fold6 v = fold6 w → fold6 v ≠ 0 → v = w)

/-- R110, R109: DECODE's record, field by field; no register is written. -/
def Obligations.DecodeExtractsControls : Prop :=
  ∀ (f : Frame) (now : Nat) (s : State),
    decode (.transaction now (0x05 :: f.toBytes)) = .ok (.decodeControls f) ∧
    ∃ r : Controls, Completes (exec (.decodeControls f) s) s (.record r) [] ∧
      r.throttle = f.f0 ∧ r.pitch = fold8 f.f1 ∧ r.yaw = fold8 f.f2 ∧ r.roll = fold8 f.f3 ∧
      r.trimPitch = fold6 (f.f5 &&& 0x3F) ∧ r.trimYaw = fold6 (f.f6 &&& 0x3F) ∧ r.trimRoll = fold6 (f.f7 &&& 0x3F) ∧
      r.video = decide (f.flagByte Config.flagSrcVideo.byte &&& Config.flagSrcVideo.mask ≠ 0) ∧
      r.picture = decide (f.flagByte Config.flagSrcPicture.byte &&& Config.flagSrcPicture.mask ≠ 0) ∧
      r.highspeed = decide (f.flagByte Config.flagSrcHighspeed.byte &&& Config.flagSrcHighspeed.mask ≠ 0) ∧
      r.flip = decide (f.flagByte Config.flagSrcFlip.byte &&& Config.flagSrcFlip.mask ≠ 0)

/-- R78, R23, R79, R80: the eight bytes of the OUT layout, with the flags in byte 7 and its bits 7:4 zero; the numeric
encodings of PSTATE, the status and the commands. -/
def Obligations.ResultEncodings : Prop :=
  (∀ r : Controls, ∃ b : Byte,
    r.toBytes = [r.throttle, r.pitch, r.yaw, r.roll, r.trimPitch, r.trimYaw, r.trimRoll, b] ∧
    b.getLsbD 0 = r.video ∧ b.getLsbD 1 = r.picture ∧ b.getLsbD 2 = r.highspeed ∧ b.getLsbD 3 = r.flip ∧
    b.toNat < 16) ∧
  (pstateBits .noBind = 0 ∧ pstateBits .waitFirstSynchro = 1 ∧ pstateBits .bound = 2 ∧
    ∀ b, pstateBits (pstateOfBits b) = b) ∧
  (statusCode .boundNewValues = 0 ∧ statusCode .boundNoValues = 1 ∧ statusCode .notBound = 2 ∧
    statusCode .bindInProgress = 3) ∧
  ∀ (a : Address) (c : Byte), commandCode (.setAddress a) = 0 ∧ commandCode (.setChannel c) = 1 ∧
    commandCode .flushRx = 2 ∧ commandCode .clearRxFlag = 3

/-! ### Channel-hop scheduler -/

/-- R141: DERIVE_HOP_TABLE's if-chain over low5. -/
def Obligations.DeriveHopTableFollowsRanges : Prop :=
  ∀ (a : Byte) (now : Nat) (s : State),
    decode (.transaction now [0x06, a]) = .ok (.deriveHopTable a) ∧
    Completes (exec (.deriveHopTable a) s) s
      (.table
        (let low5 := a.toNat % 32
         let entry := fun n : Nat => BitVec.ofNat 8 n
         if low5 < 0x10 then
           let off := if low5 = 0x06 then 0x07 else low5
           ⟨entry (0x0a + off), entry (0x1a + off), entry (0x2a + off), entry (0x3a + off)⟩
         else if low5 < 0x18 then
           let off := low5 % 8
           let extra := if low5 = 0x16 then 1 else 0
           ⟨entry (0x2a + off + extra), entry (0x0a + off + extra), entry (0x42 + off), entry (0x22 + off)⟩
         else if low5 < 0x1E then
           let off := low5 % 8
           ⟨entry (0x1a + off), entry (0x3a + off), entry (0x12 + off), entry (0x32 + off)⟩
         else if low5 = 0x1E then ⟨0x21, 0x41, 0x18, 0x38⟩
         else ⟨0x21, 0x41, 0x19, 0x39⟩))
      []

/-- R142 to R148: each case completes with its table for every address byte that selects it. -/
def Obligations.HopCasesGiveTheirTables : Prop :=
  ∀ (a : Byte) (s : State),
    let low5 := a.toNat % 32
    let entry := fun n : Nat => BitVec.ofNat 8 n
    (low5 = 0x06 → Completes (exec (.hopR1Special6 a) s) s (.table ⟨0x11, 0x21, 0x31, 0x41⟩) []) ∧
    (low5 < 0x10 → low5 ≠ 0x06 → Completes (exec (.hopR1 a) s) s
      (.table ⟨entry (0x0a + low5), entry (0x1a + low5), entry (0x2a + low5), entry (0x3a + low5)⟩) []) ∧
    (low5 = 0x16 → Completes (exec (.hopR2Special16 a) s) s (.table ⟨0x31, 0x11, 0x48, 0x28⟩) []) ∧
    (0x10 ≤ low5 → low5 < 0x18 → low5 ≠ 0x16 → Completes (exec (.hopR2 a) s) s
      (.table ⟨entry (0x2a + low5 % 8), entry (0x0a + low5 % 8), entry (0x42 + low5 % 8), entry (0x22 + low5 % 8)⟩)
      []) ∧
    (0x18 ≤ low5 → low5 < 0x1C → Completes (exec (.hopR3A a) s) s
      (.table ⟨entry (0x1a + low5 % 8), entry (0x3a + low5 % 8), entry (0x12 + low5 % 8), entry (0x32 + low5 % 8)⟩)
      []) ∧
    (0x1C ≤ low5 → low5 < 0x1E → Completes (exec (.hopR3B a) s) s
      (.table ⟨entry (0x1a + low5 % 8), entry (0x3a + low5 % 8), entry (0x12 + low5 % 8), entry (0x32 + low5 % 8)⟩)
      []) ∧
    (low5 = 0x1E → Completes (exec (.hopFixed1E a) s) s (.table ⟨0x21, 0x41, 0x18, 0x38⟩) []) ∧
    (low5 = 0x1F → Completes (exec (.hopFixed1F a) s) s (.table ⟨0x21, 0x41, 0x19, 0x39⟩) [])

/-- R76, R141: DERIVE_HOP_TABLE answers what the one case that its seed decodes to answers. -/
def Obligations.DeriveHopTableRunsItsCase : Prop :=
  ∀ (a : Byte) (s : State), ∃ i, decode (.seed a) = .ok i ∧ wellFormed i = true ∧ isHostOperation i = false ∧
    exec (.deriveHopTable a) s = exec i s

/-- R152: every hop-table entry lies in [0x0a, 0x49] and every bind channel in [0x20, 0x4b]. -/
def Obligations.HopChannelsInRange : Prop :=
  (∀ (a : Byte) (i : BitVec 2), hopChannel ((deriveHopTable a).get i)) ∧
  (∀ i : BitVec 2, 0x20 ≤ (bindChannels.get i).toNat ∧ (bindChannels.get i).toNat ≤ 0x4b)

/-- R153: HOP_ADVANCE steps HOP_IDX modulo 4, retunes, and changes nothing else. -/
def Obligations.HopAdvanceRetunes : Prop :=
  ∀ s : State, s.resetDone = true →
    ∃ (idx : BitVec 2) (c : Byte), idx.toNat = (s.hopIdx.toNat + 1) % 4 ∧
      [s.hopTable.c0, s.hopTable.c1, s.hopTable.c2, s.hopTable.c3][idx.toNat]? = some c ∧
      exec .hopAdvance s =
        .next { s with hopIdx := idx, progChan := c, commands := s.commands ++ [.setChannel c] }

/-- R154: BIND_CHANNEL_ADVANCE steps BIND_IDX modulo 4, retunes, and changes nothing else. -/
def Obligations.BindChannelAdvanceRetunes : Prop :=
  ∀ s : State, s.resetDone = true →
    ∃ (idx : BitVec 2) (c : Byte), idx.toNat = (s.bindIdx.toNat + 1) % 4 ∧
      ([0x4b, 0x30, 0x40, 0x20] : List Byte)[idx.toNat]? = some c ∧
      exec .bindChannelAdvance s =
        .next { s with bindIdx := idx, progChan := c, commands := s.commands ++ [.setChannel c] }

/-! ### Refusals and faults -/

/-- R172: a TICK is refused exactly when one of its conditions fails. R55, R71, R72, R82, R83: a TICK transaction has 10
bytes for each of its NFR frames, or is refused bad_frame_length. That this is so with bytes after NFR = 0 as well, and
that it is reported before frames_without_pend where both hold, is the model's choice (log entries 12, 13). -/
def Obligations.TickRefusedUnlessDutiesHold : Prop :=
  (∀ (pend : Bool) (now : Nat) (frames : List Frame) (s : State),
    (∃ r, exec (.tick pend now frames) s = .refused r) ↔
      ¬(s.resetDone = true ∧ s.lastTs ≤ now ∧ (pend = false → frames = []) ∧
        ∀ k, Config.rxqDepth = .bounded k → frames.length ≤ k + 1)) ∧
  (∀ (cmd nfr : Byte) (now : Nat) (bytes : List Byte), cmd = 0x01 ∨ cmd = 0x11 →
    (bytes.length ≠ 10 * nfr.toNat → decode (.transaction now (cmd :: nfr :: bytes)) = .error .badFrameLength) ∧
    (bytes.length = 10 * nfr.toNat → ∃ frames, writeFrames frames = bytes ∧ frames.length = nfr.toNat ∧
      decode (.transaction now (cmd :: nfr :: bytes)) = .ok (.tick (decide (cmd = 0x11)) now frames)))

/-- R226: the reason of a refused TICK names a condition that does fail. -/
def Obligations.TickRefusalNamesItsReason : Prop :=
  ∀ (pend : Bool) (now : Nat) (frames : List Frame) (s : State) (r : Refusal),
    exec (.tick pend now frames) s = .refused r →
      (r = .noReset ∧ s.resetDone = false) ∨ (r = .timeBackwards ∧ now < s.lastTs) ∨
      (r = .framesWithoutPend ∧ pend = false ∧ frames ≠ []) ∨
      (r = .queueOverflow ∧ ∃ k, Config.rxqDepth = .bounded k ∧ k + 1 < frames.length)

/-- R190: a TICK that is not refused faults exactly when PSTATE = 3, and then with reserved_pstate. -/
def Obligations.TickFaultsOnReservedPstate : Prop :=
  ∀ (pend : Bool) (now : Nat) (frames : List Frame) (s : State), TickAccepted pend now frames s →
    (s.pstate = .reserved →
      exec (.tick pend now frames) s = .fault .reservedPstate ∧
      exec (.tickReservedPstate3 pend now frames) s = .fault .reservedPstate) ∧
    (∀ e, exec (.tick pend now frames) s = .fault e → s.pstate = .reserved)

/-- R82: the seven reserved rows stop with their refusal, in every state and for every command byte. -/
def Obligations.ReservedRowsAreRefused : Prop :=
  ∀ (cmd : Byte) (s : State),
    exec (.reservedOpc9 cmd) s = .refused .reservedOpcode ∧
    exec (.reservedOpcAB cmd) s = .refused .reservedOpcode ∧
    exec (.reservedOpcCF cmd) s = .refused .reservedOpcode ∧
    exec (.reservedBit5 cmd) s = .refused .reservedBits ∧
    exec (.reservedBit6 cmd) s = .refused .reservedBits ∧
    exec (.reservedBit7 cmd) s = .refused .reservedBits ∧
    exec (.reservedPendNotTick cmd) s = .refused .pendNotTick

/-- R71, R82: what a step does with every command byte that starts no operation, whatever follows it. Which reason is
reported when several hold is the model's choice (log entry 11). -/
def Obligations.ReservedCommandBytesAreRefused : Prop :=
  ∀ (cmd : Byte) (operands : List Byte) (now : Nat) (rest : List Request) (s : State),
    s.requests = .transaction now (cmd :: operands) :: rest →
      let opc := cmd.toNat % 16
      (9 ≤ opc → step s = .refused .reservedOpcode) ∧
      (opc < 9 → 32 ≤ cmd.toNat → step s = .refused .reservedBits) ∧
      (opc < 9 → opc ≠ 1 → cmd.toNat < 32 → 16 ≤ cmd.toNat → step s = .refused .pendNotTick)

/-- R29, R38, R226: a host read of OUT faults before the first BOUND_NEW_VALUES and else gives OUT. -/
def Obligations.OutReadFaultsUntilWritten : Prop :=
  ∀ (s : State) (rest : List Request), s.requests = .readOut :: rest →
    (s.out = none → step s = .fault .outUnwritten) ∧
    (∀ r, s.out = some r → Completes (step s) { s with requests := rest } (.record r) [])

/-! ### TICK -/

/-- R173: an accepted TICK does what the one case chosen by PSTATE, PEND and the elapsed time does. -/
def Obligations.TickDispatchesOnStateAndPend : Prop :=
  ∀ (pend : Bool) (now : Nat) (frames : List Frame) (s : State), TickAccepted pend now frames s →
    exec (.tick pend now frames) s =
      match s.pstate, pend with
      | .noBind, false => if 128 ≤ now - s.lastTs then exec (.tickNbHop now) s else exec (.tickNbStay now) s
      | .noBind, true => exec (.tickNbDrain now frames) s
      | .waitFirstSynchro, false => exec (.tickWsIdle now) s
      | .waitFirstSynchro, true => exec (.tickWsDrain now frames) s
      | .bound, false => if 4000 ≤ now - s.lastTs then exec (.tickBdRevert now) s else exec (.tickBdStay now) s
      | .bound, true => exec (.tickBdDrain now frames) s
      | .reserved, _ => .fault .reservedPstate

/-- R77: the selector word `PSTATE : PEND` and the elapsed time decode to the case that an accepted TICK runs. -/
def Obligations.TickRunsItsSelectorWord : Prop :=
  ∀ (pend : Bool) (now : Nat) (frames : List Frame) (s : State), TickAccepted pend now frames s →
    ∃ i, decode (.selector (pstateBits s.pstate ++ BitVec.ofBool pend) (now - s.lastTs) now frames) = .ok i ∧
      isHostOperation i = false ∧ exec (.tick pend now frames) s = exec i s

/-- The model's choice (log entry 9): a case of TICK answers what the TICK would, or is refused as not selected. -/
def Obligations.TickCasesDoNoMoreThanTick : Prop :=
  ∀ (pend : Bool) (now : Nat) (frames : List Frame) (s : State),
    (∀ i ∈ ([.tickNbStay now, .tickNbHop now, .tickWsIdle now, .tickBdStay now, .tickBdRevert now] : List Instr),
      exec i s = exec (.tick false now []) s ∨ exec i s = .refused .notSelected) ∧
    (∀ i ∈ ([.tickNbDrain now frames, .tickWsDrain now frames, .tickBdDrain now frames] : List Instr),
      exec i s = exec (.tick true now frames) s ∨ exec i s = .refused .notSelected) ∧
    (exec (.tickReservedPstate3 pend now frames) s = exec (.tick pend now frames) s ∨
      exec (.tickReservedPstate3 pend now frames) s = .refused .notSelected)

/-- R171, R172: an accepted TICK in a legal PSTATE completes, with a status. -/
def Obligations.AcceptedTickCompletes : Prop :=
  ∀ (pend : Bool) (now : Nat) (frames : List Frame) (s : State), TickAccepted pend now frames s →
    s.pstate ≠ .reserved → ∃ t st, exec (.tick pend now frames) s = .next t ∧ t.result = .status st

/-- R175: in NO_BIND, idle, below 128 ms: NOT_BOUND and nothing else. -/
def Obligations.SearchStaysOnChannel : Prop :=
  ∀ (now : Nat) (s : State), s.resetDone = true → s.pstate = .noBind → s.lastTs ≤ now → now - s.lastTs < 128 →
    Completes (exec (.tick false now []) s) s (.status .notBound) [] ∧
    Completes (exec (.tickNbStay now) s) s (.status .notBound) []

/-- R176: in NO_BIND, idle, from 128 ms on: one step to the next bind channel, and LAST_TS now. -/
def Obligations.SearchHopsAfterDwell : Prop :=
  ∀ (now : Nat) (s : State), s.resetDone = true → s.pstate = .noBind → s.lastTs ≤ now → 128 ≤ now - s.lastTs →
    let c := (⟨0x4b, 0x30, 0x40, 0x20⟩ : ChannelTable).get (s.bindIdx + 1)
    let t := { s with bindIdx := s.bindIdx + 1, progChan := c, lastTs := now }
    Completes (exec (.tick false now []) s) t (.status .notBound) [.setChannel c] ∧
    Completes (exec (.tickNbHop now) s) t (.status .notBound) [.setChannel c]

/-- R177, R178: a NO_BIND drain binds to the first valid bind frame; the frames after it do not matter. -/
def Obligations.SearchBindsToFirstBindFrame : Prop :=
  ∀ (now : Nat) (pre : List Frame) (f : Frame) (post : List Frame) (s : State),
    TickAccepted true now (pre ++ f :: post) s → s.pstate = .noBind → (∀ g ∈ pre, ¬isBindFrame g) → isBindFrame f →
    let addr : Address := ⟨f.f4, f.f3, f.f2, f.f1, f.f0⟩
    let table := deriveHopTable f.f4
    let t := { s with
      txAddr := addr, progAddr := addr, hopTable := table, hopIdx := 0, progChan := table.c0, lastTs := now
      pstate := .waitFirstSynchro }
    let cmds := [.setAddress addr, .setChannel table.c0, .flushRx, .clearRxFlag]
    Completes (exec (.tick true now (pre ++ f :: post)) s) t (.status .bindInProgress) cmds ∧
    Completes (exec (.tickNbDrain now (pre ++ f :: post)) s) t (.status .bindInProgress) cmds

/-- R177, R179: a NO_BIND drain without a valid bind frame writes no register. -/
def Obligations.SearchPassesOverOtherFrames : Prop :=
  ∀ (now : Nat) (frames : List Frame) (s : State),
    TickAccepted true now frames s → s.pstate = .noBind → (∀ g ∈ frames, ¬isBindFrame g) →
    Completes (exec (.tick true now frames) s) s (.status .notBound) [.clearRxFlag] ∧
    Completes (exec (.tickNbDrain now frames) s) s (.status .notBound) [.clearRxFlag]

/-- R180, R184: WAIT_FIRST_SYNCHRO has no timeout: an idle TICK at any time changes nothing, nor does a drain
without a valid frame. -/
def Obligations.WaitHasNoTimeout : Prop :=
  ∀ (now : Nat) (frames : List Frame) (s : State), s.resetDone = true → s.lastTs ≤ now →
    s.pstate = .waitFirstSynchro →
    Completes (exec (.tick false now []) s) s (.status .bindInProgress) [] ∧
    Completes (exec (.tickWsIdle now) s) s (.status .bindInProgress) [] ∧
    (TickAccepted true now frames s → (∀ f ∈ frames, validate f = false) →
      Completes (exec (.tick true now frames) s) s (.status .bindInProgress) [.clearRxFlag] ∧
      Completes (exec (.tickWsDrain now frames) s) s (.status .bindInProgress) [.clearRxFlag])

/-- R181, R182: any valid frame in WAIT_FIRST_SYNCHRO completes the bind, with one hop advance for the batch. -/
def Obligations.FirstValidFrameCompletesBind : Prop :=
  ∀ (now : Nat) (frames : List Frame) (s : State),
    TickAccepted true now frames s → s.pstate = .waitFirstSynchro → (∃ f ∈ frames, validate f = true) →
    let c := s.hopTable.get (s.hopIdx + 1)
    let t := { s with pstate := .bound, lastTs := now, hopIdx := s.hopIdx + 1, progChan := c }
    Completes (exec (.tick true now frames) s) t (.status .bindInProgress) [.clearRxFlag, .setChannel c] ∧
    Completes (exec (.tickWsDrain now frames) s) t (.status .bindInProgress) [.clearRxFlag, .setChannel c]

/-- R185: in BOUND, idle, below 4000 ms: BOUND_NO_VALUES and nothing else. -/
def Obligations.LinkStaysBound : Prop :=
  ∀ (now : Nat) (s : State), s.resetDone = true → s.pstate = .bound → s.lastTs ≤ now → now - s.lastTs < 4000 →
    Completes (exec (.tick false now []) s) s (.status .boundNoValues) [] ∧
    Completes (exec (.tickBdStay now) s) s (.status .boundNoValues) []

/-- R186: in BOUND, idle, from 4000 ms on: back to the bind search; HOP_TABLE, HOP_IDX, TX_ADDR and OUT are kept. -/
def Obligations.SignalLossRevertsToSearch : Prop :=
  ∀ (now : Nat) (s : State), s.resetDone = true → s.pstate = .bound → s.lastTs ≤ now → 4000 ≤ now - s.lastTs →
    let t := { s with
      progAddr := Config.bindAddress, bindIdx := 0, progChan := 0x4b, lastTs := now, pstate := .noBind }
    let cmds := [.setAddress Config.bindAddress, .setChannel 0x4b]
    Completes (exec (.tick false now []) s) t (.status .boundNoValues) cmds ∧
    Completes (exec (.tickBdRevert now) s) t (.status .boundNoValues) cmds

/-- R187, R189: in BOUND, the last control frame of the batch reaches OUT, LAST_TS is now, and the hop advances once. -/
def Obligations.LastControlFrameWins : Prop :=
  ∀ (now : Nat) (pre : List Frame) (f : Frame) (post : List Frame) (s : State),
    TickAccepted true now (pre ++ f :: post) s → s.pstate = .bound → isControlFrame f →
    (∀ g ∈ post, ¬isControlFrame g) →
    let c := s.hopTable.get (s.hopIdx + 1)
    let t := { s with
      out := some (decodeControls f), lastTs := now, hopIdx := s.hopIdx + 1, progChan := c }
    Completes (exec (.tick true now (pre ++ f :: post)) s) t (.status .boundNewValues) [.clearRxFlag, .setChannel c] ∧
    Completes (exec (.tickBdDrain now (pre ++ f :: post)) s) t (.status .boundNewValues)
      [.clearRxFlag, .setChannel c]

/-- R187, R188: in BOUND, a batch without a control frame returns BOUND_NO_VALUES and writes neither OUT nor LAST_TS;
the hop advances exactly when it holds a valid bind frame. -/
def Obligations.BoundDrainWithoutControlFrame : Prop :=
  ∀ (now : Nat) (frames : List Frame) (s : State),
    TickAccepted true now frames s → s.pstate = .bound → (∀ g ∈ frames, ¬isControlFrame g) →
    ((∀ g ∈ frames, validate g = false) →
      Completes (exec (.tick true now frames) s) s (.status .boundNoValues) [.clearRxFlag] ∧
      Completes (exec (.tickBdDrain now frames) s) s (.status .boundNoValues) [.clearRxFlag]) ∧
    ((∃ g ∈ frames, isBindFrame g) →
      let c := s.hopTable.get (s.hopIdx + 1)
      let t := { s with hopIdx := s.hopIdx + 1, progChan := c }
      Completes (exec (.tick true now frames) s) t (.status .boundNoValues) [.clearRxFlag, .setChannel c] ∧
      Completes (exec (.tickBdDrain now frames) s) t (.status .boundNoValues) [.clearRxFlag, .setChannel c])

/-! ### Frames -/

/-- R112, R179: an invalid frame has no effect of its own in any state; a control frame has none in NO_BIND. -/
def Obligations.PassedOverFramesChangeNothing : Prop :=
  (∀ (f : Frame) (s : State), validate f = false → exec (.frameInvalid f) s = .next s) ∧
  (∀ (f : Frame) (s : State), s.resetDone = true → s.pstate = .noBind → isControlFrame f →
    exec (.frameNbOther f) s = .next s)

/-- R178, R177: the bind frame of a NO_BIND drain, on the commands the drain has emitted so far. That the row ends the
drain is the model's reading (log entry 10). -/
def Obligations.BindFrameAction : Prop :=
  ∀ (now : Nat) (f : Frame) (s : State), s.resetDone = true → s.lastTs ≤ now → s.pstate = .noBind → isBindFrame f →
    let addr : Address := ⟨f.f4, f.f3, f.f2, f.f1, f.f0⟩
    let table := deriveHopTable f.f4
    exec (.frameNbBind now f) s = .next { s with
      txAddr := addr, progAddr := addr, hopTable := table, hopIdx := 0, progChan := table.c0, lastTs := now
      pstate := .waitFirstSynchro, result := .status .bindInProgress
      commands := s.commands ++ [.setAddress addr, .setChannel table.c0, .flushRx, .clearRxFlag] }

/-- R182: in WAIT_FIRST_SYNCHRO any valid frame, bind or control, has the one effect; an invalid one is discarded. -/
def Obligations.WaitFrameAction : Prop :=
  ∀ (now : Nat) (f : Frame) (s : State), s.resetDone = true → s.lastTs ≤ now → s.pstate = .waitFirstSynchro →
    (validate f = true →
      exec (.frameWsValid now f) s = .next { s with validSeen := true, pstate := .bound, lastTs := now }) ∧
    (validate f = false → exec (.frameInvalid f) s = .next s)

/-- R188: a frame in BOUND, by its class. -/
def Obligations.BoundFrameActions : Prop :=
  ∀ (now : Nat) (f : Frame) (s : State), s.resetDone = true → s.pstate = .bound →
    (isBindFrame f → exec (.frameBdBind f) s = .next { s with validSeen := true }) ∧
    (isControlFrame f → s.lastTs ≤ now → exec (.frameBdControl now f) s = .next { s with
      validSeen := true, vals := some (decodeControls f), decodedSeen := true, lastTs := now }) ∧
    (validate f = false → exec (.frameInvalid f) s = .next s)

/-- R187, R188: a BOUND drain is its frame rows run in order from cleared working state, then ClearRxFlag, then
HOP_ADVANCE if a valid frame was seen, then OUT and the status. -/
def Obligations.BoundDrainRunsFrameRows : Prop :=
  ∀ (now : Nat) (frames : List Frame) (s : State), TickAccepted true now frames s → s.pstate = .bound →
    ∃ (rows : List Instr) (d a t : State),
      frames.map (fun f => decode (.frame .bound now f.toBytes)) = rows.map .ok ∧
      runAll rows { s with validSeen := false, decodedSeen := false, vals := none, result := .nothing, commands := [] }
        = .next d ∧
      (if d.validSeen then exec .hopAdvance { d with commands := [.clearRxFlag] } = .next a
        else a = { d with commands := [.clearRxFlag] }) ∧
      exec (.tick true now frames) s = .next t ∧ t.commands = a.commands ∧
      SameRegisters { a with out := if d.decodedSeen then d.vals else s.out } t ∧
      t.result = .status (if d.decodedSeen then .boundNewValues else .boundNoValues)

/-! ### Whole-machine rules -/

/-- R112: two pending TICKs whose batches differ only by invalid frames have the same outcome. -/
def Obligations.InvalidFramesHaveNoEffect : Prop :=
  ∀ (now : Nat) (frames others : List Frame) (s : State),
    TickAccepted true now frames s → TickAccepted true now others s →
    frames.filter validate = others.filter validate →
    exec (.tick true now frames) s = exec (.tick true now others) s

/-- R192: an idle TICK that stays put writes no register and emits no command, and neither does the same TICK again. -/
def Obligations.IdleTicksAreIdempotent : Prop :=
  ∀ (now later : Nat) (s t : State),
    (s.pstate = .noBind ∧ later - s.lastTs < 128) ∨ s.pstate = .waitFirstSynchro ∨
      (s.pstate = .bound ∧ later - s.lastTs < 4000) →
    now ≤ later → exec (.tick false now []) s = .next t →
    SameRegisters s t ∧ t.commands = [] ∧ exec (.tick false later []) t = exec (.tick false later []) s ∧
    ∃ u, exec (.tick false later []) t = .next u ∧ SameRegisters s u ∧ u.commands = []

/-- R193: a pending TICK, however late, never hops the search and never reverts the link; of invalid frames only, it
writes no register. -/
def Obligations.PendingTickNeverHopsOrReverts : Prop :=
  ∀ (now : Nat) (frames : List Frame) (s t : State), exec (.tick true now frames) s = .next t →
    (s.pstate = .noBind → t.bindIdx = s.bindIdx) ∧
    (s.pstate = .bound → t.pstate = .bound) ∧
    ((∀ f ∈ frames, validate f = false) → SameRegisters s t ∧ t.commands = [.clearRxFlag])

/-- R194: every transition of a TICK with its status and whether OUT is written. -/
def Obligations.TickTransitionTable : Prop :=
  ∀ (pend : Bool) (now : Nat) (frames : List Frame) (s t : State), exec (.tick pend now frames) s = .next t →
    (s.pstate = .noBind ∧ t.pstate = .noBind ∧ t.result = .status .notBound ∧ t.out = s.out ∧
      (pend = true → ∀ f ∈ frames, ¬isBindFrame f)) ∨
    (s.pstate = .noBind ∧ t.pstate = .waitFirstSynchro ∧ t.result = .status .bindInProgress ∧ t.out = s.out ∧
      pend = true ∧ ∃ f ∈ frames, isBindFrame f) ∨
    (s.pstate = .waitFirstSynchro ∧ t.pstate = .waitFirstSynchro ∧ t.result = .status .bindInProgress ∧
      t.out = s.out ∧ (pend = true → ∀ f ∈ frames, validate f = false)) ∨
    (s.pstate = .waitFirstSynchro ∧ t.pstate = .bound ∧ t.result = .status .bindInProgress ∧ t.out = s.out ∧
      pend = true ∧ ∃ f ∈ frames, validate f = true) ∨
    (s.pstate = .bound ∧ t.pstate = .bound ∧ t.result = .status .boundNoValues ∧ t.out = s.out ∧
      (pend = false → now - s.lastTs < 4000) ∧ (pend = true → ∀ f ∈ frames, ¬isControlFrame f)) ∨
    (s.pstate = .bound ∧ t.pstate = .noBind ∧ t.result = .status .boundNoValues ∧ t.out = s.out ∧
      pend = false ∧ 4000 ≤ now - s.lastTs) ∨
    (s.pstate = .bound ∧ t.pstate = .bound ∧ t.result = .status .boundNewValues ∧ pend = true ∧
      ∃ f ∈ frames, isControlFrame f ∧ t.out = some (decodeControls f))

/-- R105, R29: no step puts a bind-marker frame into OUT. A step that returns BOUND_NEW_VALUES ran, in BOUND, the pending
TICK of the oldest transaction, and OUT is the record of the last control frame of that TICK's own batch; every other
step leaves OUT as it was, or is RESET. -/
def Obligations.OutTakesControlFramesOnly : Prop :=
  ∀ s t : State, step s = .next t →
    (t.out = s.out ∧ t.result ≠ .status .boundNewValues) ∨
    (∃ now rest, s.requests = .transaction now [0x00] :: rest ∧ t.out = none) ∨
    (s.pstate = .bound ∧ t.result = .status .boundNewValues ∧
      ∃ now bytes rest pre f post, s.requests = .transaction now bytes :: rest ∧
        decode (.transaction now bytes) = .ok (.tick true now (pre ++ f :: post)) ∧
        isControlFrame f ∧ (∀ g ∈ post, ¬isControlFrame g) ∧ t.out = some (decodeControls f))

/-- R26, R27, R150: HOP_TABLE and TX_ADDR are written only by RESET and by the bind, which derives one from the other. -/
def Obligations.HopTableWrittenOnlyByBind : Prop :=
  ∀ s t : State, step s = .next t →
    (t.hopTable = s.hopTable ∧ t.txAddr = s.txAddr) ∨
    (∃ now rest, s.requests = .transaction now [0x00] :: rest) ∨
    (s.pstate = .noBind ∧ t.pstate = .waitFirstSynchro ∧ t.hopTable = deriveHopTable t.txAddr.a0)

/-- R71, R100, R140: the test-access operations and the hop cases write no register and emit nothing, and exec of a
decoded test-access operation answers a next state. Its transaction can still be refused (R82, R226: PEND = 1, or a frame
that is not 10 bytes). That test access runs before RESET too is deduced from R226, whose no_reset names a TICK only (log
entry 3). -/
def Obligations.TestAccessWritesNoRegister : Prop :=
  (∀ (f : Frame) (b : Byte) (s : State),
    ∀ i ∈ ([.checksum f, .validate f, .isBindMarker f, .decodeControls f, .deriveHopTable b, .fold8 b, .fold6 b] :
      List Instr), ∃ t, exec i s = .next t ∧ SameRegisters s t ∧ t.commands = []) ∧
  (∀ (b : Byte) (s t : State),
    ∀ i ∈ ([.hopR1Special6 b, .hopR1 b, .hopR2Special16 b, .hopR2 b, .hopR3A b, .hopR3B b, .hopFixed1E b,
      .hopFixed1F b] : List Instr), exec i s = .next t → SameRegisters s t ∧ t.commands = [])

/-- R30, R31: PROG_CHAN and PROG_ADDR are mirrors that no TICK reads: two states that differ only there answer
alike in everything else. -/
def Obligations.MirrorsAreNeverRead : Prop :=
  ∀ (pend : Bool) (now : Nat) (frames : List Frame) (s t : State) (c : Byte) (a : Address),
    exec (.tick pend now frames) s = .next t →
    ∃ u, exec (.tick pend now frames) { s with progChan := c, progAddr := a } = .next u ∧
      { u with progChan := t.progChan, progAddr := t.progAddr } = t

/-- R28, R37, R261: every LAST_TS write of a TICK stores its `now`, so LAST_TS never passes the latest time. -/
def Obligations.LastTsTakesTheTickTime : Prop :=
  ∀ (pend : Bool) (now : Nat) (frames : List Frame) (s t : State), exec (.tick pend now frames) s = .next t →
    (t.lastTs = s.lastTs ∨ t.lastTs = now) ∧ s.lastTs ≤ t.lastTs ∧ t.lastTs ≤ now

/-- R174: every pending TICK emits exactly one ClearRxFlag, an idle one none, and FlushRx goes out exactly at a bind;
the mirrors hold the last SetChannel and SetAddress sent. -/
def Obligations.DrainClearsFlagOnce : Prop :=
  ∀ (pend : Bool) (now : Nat) (frames : List Frame) (s t : State), exec (.tick pend now frames) s = .next t →
    t.commands.count .clearRxFlag = (if pend then 1 else 0) ∧
    (.flushRx ∈ t.commands ↔ s.pstate = .noBind ∧ t.pstate = .waitFirstSynchro) ∧
    (∀ pre c post, t.commands = pre ++ .setChannel c :: post → (∀ d, .setChannel d ∉ post) → t.progChan = c) ∧
    (∀ pre a post, t.commands = pre ++ .setAddress a :: post → (∀ d, .setAddress d ∉ post) → t.progAddr = a) ∧
    ((∀ c, .setChannel c ∉ t.commands) → t.progChan = s.progChan) ∧
    ((∀ a, .setAddress a ∉ t.commands) → t.progAddr = s.progAddr)

/-- R37: the invariants hold at the machine's reset state and after RESET in whatever state it is sent. That the working
state of drains is cleared there is the model's choice (log entry 7). Before RESET nothing is asked of the registers, so
that State.powerUp meets the invariants says nothing of them (log entry 3). -/
def Obligations.LinkInvariantHoldsAfterReset : Prop :=
  Invariant State.reset ∧ Invariant State.powerUp ∧
  ∀ (now : Nat) (s t : State), exec (.reset now) s = .next t → t.resetDone = true ∧ LinkInvariant t

/-- R37: every step of the machine keeps the invariants, and, by the model's choice (log entry 7), leaves the working
state of drains cleared. -/
def Obligations.EveryStepKeepsLinkInvariant : Prop :=
  ∀ s t : State, Invariant s → step s = .next t → Invariant t

/-- R7, R29, R78: every step keeps the records of OUT in range. -/
def Obligations.EveryStepKeepsOutInRange : Prop :=
  OutInRange State.reset ∧ ∀ s t : State, OutInRange s → step s = .next t → OutInRange t

/-! ### Encoding -/

/-- R70 to R77: decoding the word of a well-formed instruction gives it back, for the rows of all four formats; the two
INTERNAL rows, and no other, have no word. -/
def Obligations.DecodeEncodeAgree : Prop :=
  (∀ (i : Instr) (w : EncodedWord), wellFormed i = true → encode i = some w → decode w = .ok i) ∧
  (∀ i : Instr, encode i = none ↔ i = .hopAdvance ∨ i = .bindChannelAdvance)

/-- R71, R72, R83, R153, R154: what a host transaction decodes to is a well-formed operation of the host, never a case
or a sub-operation; and where its command byte is not reserved, its bytes are those the encoder writes. -/
def Obligations.TransactionsDecodeToHostOperations : Prop :=
  ∀ (now : Nat) (bytes : List Byte) (i : Instr), decode (.transaction now bytes) = .ok i →
    isHostOperation i = true ∧ wellFormed i = true ∧
    ((bytes.headD 0).toNat ≤ 8 ∨ bytes.headD 0 = 0x11 →
      bytes.length = transactionLength bytes ∧ ∃ n, encode i = some (.transaction n bytes))

/-- R12, R21: a step runs the instruction that the oldest transaction decodes to on the rest of the requests, or refuses
as decoding does. With no request it is refused (log entry 15). -/
def Obligations.StepRunsDecodedInstruction : Prop :=
  (∀ (s : State) (now : Nat) (bytes : List Byte) (rest : List Request),
    s.requests = .transaction now bytes :: rest →
    (∀ i, decode (.transaction now bytes) = .ok i → step s = exec i { s with requests := rest }) ∧
    (∀ r, decode (.transaction now bytes) = .error r → step s = .refused r)) ∧
  (∀ (s : State) (nbits w : Nat) (i : Instr), decode (.transaction s.lastTs (transactionOfWord nbits w)) = .ok i →
    step (s.withFetchWord nbits w) = exec i s) ∧
  (∀ s : State, s.requests = [] → step s = .refused .hostIdle)

/-- R71, R73, R76, R77: words written out from the spec's encodings decode to their instructions. -/
def Obligations.WrittenWordsDecode : Prop :=
  decode (.transaction 7 [0x00]) = .ok (.reset 7) ∧
  decode (.transaction 50 [0x11, 0x01, 0x00, 0x00, 0x00, 0x00, 0x16, 0xAA, 0xAA, 0xAA, 0x00, 0x11]) =
    .ok (.tick true 50 [⟨0x00, 0x00, 0x00, 0x00, 0x16, 0xAA, 0xAA, 0xAA, 0x00, 0x11⟩]) ∧
  decode (.transaction 0 [0x06, 0x16]) = .ok (.deriveHopTable 0x16) ∧
  decode (.seed 0x16) = .ok (.hopR2Special16 0x16) ∧
  decode (.selector 0b100 4000 5000 []) = .ok (.tickBdRevert 5000)

/-- R55, R72, R82, R226: the frame operand of CHECKSUM, VALIDATE, IS_BIND_MARKER and DECODE is exactly 10 bytes, f[0]
first; with any other number of bytes the step is refused bad_frame_length, in every state. -/
def Obligations.FrameOperandsAreTenBytes : Prop :=
  ∀ row ∈ ([(0x02, .checksum), (0x03, .validate), (0x04, .isBindMarker), (0x05, .decodeControls)] :
      List (Byte × (Frame → Instr))),
    ∀ (operands : List Byte) (now : Nat) (rest : List Request) (s : State),
      s.requests = .transaction now (row.1 :: operands) :: rest →
        (operands.length ≠ 10 → step s = .refused .badFrameLength) ∧
        (operands.length = 10 → ∃ f, f.toBytes = operands ∧
          decode (.transaction now (row.1 :: operands)) = .ok (row.2 f) ∧
          step s = exec (row.2 f) { s with requests := rest })
end

