-- ==== Sys2Proof/Laws/State.lean ====
section
/-! SUPPORT. What each update of the state does to each field, and each transition as one record update. -/

namespace Sys2Proof.Machine

open Sys2Proof

/-! ### emit -/

@[simp] theorem emit_resetDone (s : State) (c : Command) : (s.emit c).resetDone = s.resetDone := by cases c <;> rfl
@[simp] theorem emit_pstate (s : State) (c : Command) : (s.emit c).pstate = s.pstate := by cases c <;> rfl
@[simp] theorem emit_bindIdx (s : State) (c : Command) : (s.emit c).bindIdx = s.bindIdx := by cases c <;> rfl
@[simp] theorem emit_hopIdx (s : State) (c : Command) : (s.emit c).hopIdx = s.hopIdx := by cases c <;> rfl
@[simp] theorem emit_hopTable (s : State) (c : Command) : (s.emit c).hopTable = s.hopTable := by cases c <;> rfl
@[simp] theorem emit_txAddr (s : State) (c : Command) : (s.emit c).txAddr = s.txAddr := by cases c <;> rfl
@[simp] theorem emit_lastTs (s : State) (c : Command) : (s.emit c).lastTs = s.lastTs := by cases c <;> rfl
@[simp] theorem emit_out (s : State) (c : Command) : (s.emit c).out = s.out := by cases c <;> rfl
@[simp] theorem emit_validSeen (s : State) (c : Command) : (s.emit c).validSeen = s.validSeen := by cases c <;> rfl
@[simp] theorem emit_decodedSeen (s : State) (c : Command) : (s.emit c).decodedSeen = s.decodedSeen := by cases c <;> rfl
@[simp] theorem emit_vals (s : State) (c : Command) : (s.emit c).vals = s.vals := by cases c <;> rfl
@[simp] theorem emit_result (s : State) (c : Command) : (s.emit c).result = s.result := by cases c <;> rfl
@[simp] theorem emit_requests (s : State) (c : Command) : (s.emit c).requests = s.requests := by cases c <;> rfl
@[simp] theorem emit_commands (s : State) (c : Command) : (s.emit c).commands = s.commands ++ [c] := by cases c <;> rfl
@[simp] theorem emit_setAddress_progChan (s : State) (a : Address) : (s.emit (.setAddress a)).progChan = s.progChan := rfl
@[simp] theorem emit_setAddress_progAddr (s : State) (a : Address) : (s.emit (.setAddress a)).progAddr = a := rfl
@[simp] theorem emit_setChannel_progChan (s : State) (ch : Byte) : (s.emit (.setChannel ch)).progChan = ch := rfl
@[simp] theorem emit_setChannel_progAddr (s : State) (ch : Byte) : (s.emit (.setChannel ch)).progAddr = s.progAddr := rfl
@[simp] theorem emit_flushRx_progChan (s : State) : (s.emit .flushRx).progChan = s.progChan := rfl
@[simp] theorem emit_flushRx_progAddr (s : State) : (s.emit .flushRx).progAddr = s.progAddr := rfl
@[simp] theorem emit_clearRxFlag_progChan (s : State) : (s.emit .clearRxFlag).progChan = s.progChan := rfl
@[simp] theorem emit_clearRxFlag_progAddr (s : State) : (s.emit .clearRxFlag).progAddr = s.progAddr := rfl

/-! ### report -/

@[simp] theorem report_resetDone (s : State) (r : OpResult) : (s.report r).resetDone = s.resetDone := rfl
@[simp] theorem report_pstate (s : State) (r : OpResult) : (s.report r).pstate = s.pstate := rfl
@[simp] theorem report_bindIdx (s : State) (r : OpResult) : (s.report r).bindIdx = s.bindIdx := rfl
@[simp] theorem report_hopIdx (s : State) (r : OpResult) : (s.report r).hopIdx = s.hopIdx := rfl
@[simp] theorem report_hopTable (s : State) (r : OpResult) : (s.report r).hopTable = s.hopTable := rfl
@[simp] theorem report_txAddr (s : State) (r : OpResult) : (s.report r).txAddr = s.txAddr := rfl
@[simp] theorem report_lastTs (s : State) (r : OpResult) : (s.report r).lastTs = s.lastTs := rfl
@[simp] theorem report_out (s : State) (r : OpResult) : (s.report r).out = s.out := rfl
@[simp] theorem report_progChan (s : State) (r : OpResult) : (s.report r).progChan = s.progChan := rfl
@[simp] theorem report_progAddr (s : State) (r : OpResult) : (s.report r).progAddr = s.progAddr := rfl
@[simp] theorem report_validSeen (s : State) (r : OpResult) : (s.report r).validSeen = s.validSeen := rfl
@[simp] theorem report_decodedSeen (s : State) (r : OpResult) : (s.report r).decodedSeen = s.decodedSeen := rfl
@[simp] theorem report_vals (s : State) (r : OpResult) : (s.report r).vals = s.vals := rfl
@[simp] theorem report_result (s : State) (r : OpResult) : (s.report r).result = r := rfl
@[simp] theorem report_commands (s : State) (r : OpResult) : (s.report r).commands = s.commands := rfl
@[simp] theorem report_requests (s : State) (r : OpResult) : (s.report r).requests = s.requests := rfl

/-! ### returnStatus -/

@[simp] theorem returnStatus_resetDone (s : State) (st : Status) : (s.returnStatus st).resetDone = s.resetDone := rfl
@[simp] theorem returnStatus_pstate (s : State) (st : Status) : (s.returnStatus st).pstate = s.pstate := rfl
@[simp] theorem returnStatus_bindIdx (s : State) (st : Status) : (s.returnStatus st).bindIdx = s.bindIdx := rfl
@[simp] theorem returnStatus_hopIdx (s : State) (st : Status) : (s.returnStatus st).hopIdx = s.hopIdx := rfl
@[simp] theorem returnStatus_hopTable (s : State) (st : Status) : (s.returnStatus st).hopTable = s.hopTable := rfl
@[simp] theorem returnStatus_txAddr (s : State) (st : Status) : (s.returnStatus st).txAddr = s.txAddr := rfl
@[simp] theorem returnStatus_lastTs (s : State) (st : Status) : (s.returnStatus st).lastTs = s.lastTs := rfl
@[simp] theorem returnStatus_out (s : State) (st : Status) : (s.returnStatus st).out = s.out := rfl
@[simp] theorem returnStatus_progChan (s : State) (st : Status) : (s.returnStatus st).progChan = s.progChan := rfl
@[simp] theorem returnStatus_progAddr (s : State) (st : Status) : (s.returnStatus st).progAddr = s.progAddr := rfl
@[simp] theorem returnStatus_validSeen (s : State) (st : Status) : (s.returnStatus st).validSeen = s.validSeen := rfl
@[simp] theorem returnStatus_decodedSeen (s : State) (st : Status) : (s.returnStatus st).decodedSeen = s.decodedSeen := rfl
@[simp] theorem returnStatus_vals (s : State) (st : Status) : (s.returnStatus st).vals = s.vals := rfl
@[simp] theorem returnStatus_result (s : State) (st : Status) : (s.returnStatus st).result = .status st := rfl
@[simp] theorem returnStatus_commands (s : State) (st : Status) : (s.returnStatus st).commands = s.commands := rfl
@[simp] theorem returnStatus_requests (s : State) (st : Status) : (s.returnStatus st).requests = s.requests := rfl

/-! ### beginOperation -/

@[simp] theorem beginOperation_resetDone (s : State) : (s.beginOperation).resetDone = s.resetDone := rfl
@[simp] theorem beginOperation_pstate (s : State) : (s.beginOperation).pstate = s.pstate := rfl
@[simp] theorem beginOperation_bindIdx (s : State) : (s.beginOperation).bindIdx = s.bindIdx := rfl
@[simp] theorem beginOperation_hopIdx (s : State) : (s.beginOperation).hopIdx = s.hopIdx := rfl
@[simp] theorem beginOperation_hopTable (s : State) : (s.beginOperation).hopTable = s.hopTable := rfl
@[simp] theorem beginOperation_txAddr (s : State) : (s.beginOperation).txAddr = s.txAddr := rfl
@[simp] theorem beginOperation_lastTs (s : State) : (s.beginOperation).lastTs = s.lastTs := rfl
@[simp] theorem beginOperation_out (s : State) : (s.beginOperation).out = s.out := rfl
@[simp] theorem beginOperation_progChan (s : State) : (s.beginOperation).progChan = s.progChan := rfl
@[simp] theorem beginOperation_progAddr (s : State) : (s.beginOperation).progAddr = s.progAddr := rfl
@[simp] theorem beginOperation_validSeen (s : State) : (s.beginOperation).validSeen = s.validSeen := rfl
@[simp] theorem beginOperation_decodedSeen (s : State) : (s.beginOperation).decodedSeen = s.decodedSeen := rfl
@[simp] theorem beginOperation_vals (s : State) : (s.beginOperation).vals = s.vals := rfl
@[simp] theorem beginOperation_result (s : State) : (s.beginOperation).result = .nothing := rfl
@[simp] theorem beginOperation_commands (s : State) : (s.beginOperation).commands = [] := rfl
@[simp] theorem beginOperation_requests (s : State) : (s.beginOperation).requests = s.requests := rfl

/-! ### clearWorking -/

@[simp] theorem clearWorking_resetDone (s : State) : (s.clearWorking).resetDone = s.resetDone := rfl
@[simp] theorem clearWorking_pstate (s : State) : (s.clearWorking).pstate = s.pstate := rfl
@[simp] theorem clearWorking_bindIdx (s : State) : (s.clearWorking).bindIdx = s.bindIdx := rfl
@[simp] theorem clearWorking_hopIdx (s : State) : (s.clearWorking).hopIdx = s.hopIdx := rfl
@[simp] theorem clearWorking_hopTable (s : State) : (s.clearWorking).hopTable = s.hopTable := rfl
@[simp] theorem clearWorking_txAddr (s : State) : (s.clearWorking).txAddr = s.txAddr := rfl
@[simp] theorem clearWorking_lastTs (s : State) : (s.clearWorking).lastTs = s.lastTs := rfl
@[simp] theorem clearWorking_out (s : State) : (s.clearWorking).out = s.out := rfl
@[simp] theorem clearWorking_progChan (s : State) : (s.clearWorking).progChan = s.progChan := rfl
@[simp] theorem clearWorking_progAddr (s : State) : (s.clearWorking).progAddr = s.progAddr := rfl
@[simp] theorem clearWorking_validSeen (s : State) : (s.clearWorking).validSeen = false := rfl
@[simp] theorem clearWorking_decodedSeen (s : State) : (s.clearWorking).decodedSeen = false := rfl
@[simp] theorem clearWorking_vals (s : State) : (s.clearWorking).vals = none := rfl
@[simp] theorem clearWorking_result (s : State) : (s.clearWorking).result = s.result := rfl
@[simp] theorem clearWorking_commands (s : State) : (s.clearWorking).commands = s.commands := rfl
@[simp] theorem clearWorking_requests (s : State) : (s.clearWorking).requests = s.requests := rfl

/-! ### unitResult -/

@[simp] theorem unitResult_resetDone (s : State) (r : OpResult) : (s.unitResult r).resetDone = s.resetDone := rfl
@[simp] theorem unitResult_pstate (s : State) (r : OpResult) : (s.unitResult r).pstate = s.pstate := rfl
@[simp] theorem unitResult_bindIdx (s : State) (r : OpResult) : (s.unitResult r).bindIdx = s.bindIdx := rfl
@[simp] theorem unitResult_hopIdx (s : State) (r : OpResult) : (s.unitResult r).hopIdx = s.hopIdx := rfl
@[simp] theorem unitResult_hopTable (s : State) (r : OpResult) : (s.unitResult r).hopTable = s.hopTable := rfl
@[simp] theorem unitResult_txAddr (s : State) (r : OpResult) : (s.unitResult r).txAddr = s.txAddr := rfl
@[simp] theorem unitResult_lastTs (s : State) (r : OpResult) : (s.unitResult r).lastTs = s.lastTs := rfl
@[simp] theorem unitResult_out (s : State) (r : OpResult) : (s.unitResult r).out = s.out := rfl
@[simp] theorem unitResult_progChan (s : State) (r : OpResult) : (s.unitResult r).progChan = s.progChan := rfl
@[simp] theorem unitResult_progAddr (s : State) (r : OpResult) : (s.unitResult r).progAddr = s.progAddr := rfl
@[simp] theorem unitResult_validSeen (s : State) (r : OpResult) : (s.unitResult r).validSeen = s.validSeen := rfl
@[simp] theorem unitResult_decodedSeen (s : State) (r : OpResult) : (s.unitResult r).decodedSeen = s.decodedSeen := rfl
@[simp] theorem unitResult_vals (s : State) (r : OpResult) : (s.unitResult r).vals = s.vals := rfl
@[simp] theorem unitResult_result (s : State) (r : OpResult) : (s.unitResult r).result = r := rfl
@[simp] theorem unitResult_commands (s : State) (r : OpResult) : (s.unitResult r).commands = [] := rfl
@[simp] theorem unitResult_requests (s : State) (r : OpResult) : (s.unitResult r).requests = s.requests := rfl

/-! ### Transitions, each as one record update -/

theorem stepHopIndex_eq (s : State) :
    stepHopIndex s = { s with
      hopIdx := s.hopIdx + 1
      progChan := s.hopTable.get (s.hopIdx + 1)
      commands := s.commands ++ [.setChannel (s.hopTable.get (s.hopIdx + 1))] } := rfl

theorem stepBindIndex_eq (s : State) :
    stepBindIndex s = { s with
      bindIdx := s.bindIdx + 1
      progChan := bindChannels.get (s.bindIdx + 1)
      commands := s.commands ++ [.setChannel (bindChannels.get (s.bindIdx + 1))] } := rfl

theorem bindTo_eq (now : Nat) (f : Frame) (s : State) :
    bindTo now f s = { s with
      txAddr := f.address
      progAddr := f.address
      hopTable := deriveHopTable f.f4
      hopIdx := 0
      progChan := (deriveHopTable f.f4).c0
      lastTs := now
      pstate := .waitFirstSynchro
      commands := s.commands ++ [.setAddress f.address] ++ [.setChannel (deriveHopTable f.f4).c0] } := rfl

theorem nbBindFrame_eq (now : Nat) (f : Frame) (s : State) :
    nbBindFrame now f s = { s with
      txAddr := f.address
      progAddr := f.address
      hopTable := deriveHopTable f.f4
      hopIdx := 0
      progChan := (deriveHopTable f.f4).c0
      lastTs := now
      pstate := .waitFirstSynchro
      result := .status .bindInProgress
      commands := s.commands ++ [.setAddress f.address] ++ [.setChannel (deriveHopTable f.f4).c0] ++ [.flushRx]
        ++ [.clearRxFlag] } := rfl

theorem revertToSearch_eq (now : Nat) (s : State) :
    revertToSearch now s = { s with
      progAddr := Config.bindAddress
      bindIdx := 0
      progChan := bindChannels.c0
      lastTs := now
      pstate := .noBind
      commands := s.commands ++ [.setAddress Config.bindAddress] ++ [.setChannel bindChannels.c0] } := rfl

theorem advanceIfValid_of_valid {s : State} (h : s.validSeen = true) : advanceIfValid s = stepHopIndex s := by
  simp [advanceIfValid, h]

theorem advanceIfValid_of_none {s : State} (h : s.validSeen = false) : advanceIfValid s = s := by
  simp [advanceIfValid, h]

/-- Index 0 names the first entry. -/
@[simp] theorem get_zero (t : ChannelTable) : t.get 0 = t.c0 := rfl

end Sys2Proof.Machine
end

