-- ==== Sys2Proof/Laws/Ops.lean ====
section
/-! SUPPORT. What each shared operation can do, said once: the checks of a TICK, its dispatch, and the drains. -/

namespace Sys2Proof.Machine

open Sys2Proof

/-! ### Parameters -/

@[simp] theorem queueHolds_zero : queueHolds 0 = true := rfl

/-- Every depth holds one frame, since a depth is positive (R6). -/
@[simp] theorem queueHolds_one : queueHolds 1 = true := by
  unfold queueHolds
  cases Config.rxqDepth <;> simp

theorem queueHolds_mono {m n : Nat} (hmn : m ≤ n) (h : queueHolds n = true) : queueHolds m = true := by
  cases m with
  | zero => rfl
  | succ m =>
    cases n with
    | zero => omega
    | succ n =>
      unfold queueHolds at h ⊢
      cases hd : Config.rxqDepth with
      | unbounded => rfl
      | bounded k => simp only [hd, decide_eq_true_eq] at h ⊢; omega

/-- A batch fits exactly when it is no longer than a bounded depth (R172). -/
theorem queueHolds_iff (n : Nat) :
    queueHolds n = true ↔ ∀ k, Config.rxqDepth = .bounded k → n ≤ k + 1 := by
  cases n with
  | zero => simp [queueHolds]
  | succ n =>
    unfold queueHolds
    cases Config.rxqDepth <;> simp

/-! ### Checks of a TICK -/

theorem clockRefusal_eq_none {now : Nat} {s : State} :
    clockRefusal now s = none ↔ s.resetDone = true ∧ s.lastTs ≤ now := by
  unfold clockRefusal
  split
  · simp_all
  · split <;> simp_all

/-- A TICK is refused by no check exactly when R172's conditions hold. -/
theorem tickRefusal_eq_none {pend : Bool} {now : Nat} {frames : List Frame} {s : State} :
    tickRefusal pend now frames s = none ↔ TickAccepted pend now frames s := by
  constructor
  · intro h
    unfold tickRefusal at h
    split at h
    · cases h
    · next hc =>
      obtain ⟨hr, ht⟩ := clockRefusal_eq_none.mp hc
      split at h
      · cases h
      · next hp =>
        split at h
        · cases h
        · next hq =>
          refine ⟨hr, ht, fun hpend => ?_, by simpa using hq⟩
          by_contra hne
          exact hp ⟨hpend, hne⟩
  · intro h
    have hc := clockRefusal_eq_none.mpr ⟨h.resetRan, h.timeForward⟩
    have hp : ¬(pend = false ∧ frames ≠ []) := fun ⟨hpend, hne⟩ => hne (h.pendIfFrames hpend)
    simp [tickRefusal, hc, hp, h.fitsQueue]

/-- Each refusal of a TICK names a condition that fails (R226). -/
theorem tickRefusal_eq_some {pend : Bool} {now : Nat} {frames : List Frame} {s : State} {r : Refusal}
    (h : tickRefusal pend now frames s = some r) :
    (r = .noReset ∧ s.resetDone = false) ∨ (r = .timeBackwards ∧ now < s.lastTs) ∨
      (r = .framesWithoutPend ∧ pend = false ∧ frames ≠ []) ∨
      (r = .queueOverflow ∧ queueHolds frames.length = false) := by
  unfold tickRefusal clockRefusal at h
  split at h
  · next hc => split at hc <;> simp_all
  · split at h
    · simp_all
    · split at h <;> simp_all

theorem execTick_of_accepted {pend : Bool} {now : Nat} {frames : List Frame} {s : State}
    (h : TickAccepted pend now frames s) :
    execTick pend now frames s = runCase (tickCase pend now s) now frames s := by
  simp [execTick, tickRefusal_eq_none.mpr h]

theorem runSelected_of_accepted {c : TickCase} {pend : Bool} {now : Nat} {frames : List Frame} {s : State}
    (h : TickAccepted pend now frames s) (hc : tickCase pend now s = c) :
    runSelected c pend now frames s = runCase c now frames s := by
  simp [runSelected, tickRefusal_eq_none.mpr h, hc]

/-- A case answers what the TICK answers, or is not selected. -/
theorem runSelected_eq (c : TickCase) (pend : Bool) (now : Nat) (frames : List Frame) (s : State) :
    runSelected c pend now frames s = execTick pend now frames s ∨
      runSelected c pend now frames s = .refused .notSelected := by
  unfold runSelected execTick
  split
  · exact .inl rfl
  · split
    · next h => exact .inl (by rw [h])
    · exact .inr rfl

/-- A TICK that answers a next state was accepted, and ran its case. -/
theorem execTick_next {pend : Bool} {now : Nat} {frames : List Frame} {s t : State}
    (h : execTick pend now frames s = .next t) :
    TickAccepted pend now frames s ∧ runCase (tickCase pend now s) now frames s = .next t := by
  unfold execTick at h
  split at h
  · cases h
  · next hr => exact ⟨tickRefusal_eq_none.mp hr, h⟩

/-! ### Case selection (R173) -/

theorem tickCase_noBind_idle {now : Nat} {s : State} (h : s.pstate = .noBind) :
    tickCase false now s = if 128 ≤ now - s.lastTs then .nbHop else .nbStay := by
  simp only [tickCase, h]; rfl

theorem tickCase_noBind_pending {now : Nat} {s : State} (h : s.pstate = .noBind) :
    tickCase true now s = .nbDrain := by
  simp only [tickCase, h]; rfl

theorem tickCase_wait_idle {now : Nat} {s : State} (h : s.pstate = .waitFirstSynchro) :
    tickCase false now s = .wsIdle := by
  simp only [tickCase, h]; rfl

theorem tickCase_wait_pending {now : Nat} {s : State} (h : s.pstate = .waitFirstSynchro) :
    tickCase true now s = .wsDrain := by
  simp only [tickCase, h]; rfl

theorem tickCase_bound_idle {now : Nat} {s : State} (h : s.pstate = .bound) :
    tickCase false now s = if 4000 ≤ now - s.lastTs then .bdRevert else .bdStay := by
  simp only [tickCase, h]; rfl

theorem tickCase_bound_pending {now : Nat} {s : State} (h : s.pstate = .bound) :
    tickCase true now s = .bdDrain := by
  simp only [tickCase, h]; rfl

theorem tickCase_reserved {pend : Bool} {now : Nat} {s : State} (h : s.pstate = .reserved) :
    tickCase pend now s = .reservedPstate3 := by
  simp only [tickCase, h]; cases pend <;> rfl

/-- Everything an accepted TICK can do: the PSTATE, PEND and elapsed time of its case, and the state it makes. -/
theorem runTickCase_next {pend : Bool} {now : Nat} {frames : List Frame} {s t : State}
    (h : runCase (tickCase pend now s) now frames s = .next t) :
    (s.pstate = .noBind ∧ pend = false ∧ now - s.lastTs < 128 ∧ t = nbStay s) ∨
    (s.pstate = .noBind ∧ pend = false ∧ 128 ≤ now - s.lastTs ∧ t = nbHop now s) ∨
    (s.pstate = .noBind ∧ pend = true ∧ t = nbDrain now frames s) ∨
    (s.pstate = .waitFirstSynchro ∧ pend = false ∧ t = wsIdle s) ∨
    (s.pstate = .waitFirstSynchro ∧ pend = true ∧ t = wsDrain now frames s) ∨
    (s.pstate = .bound ∧ pend = false ∧ now - s.lastTs < 4000 ∧ t = bdStay s) ∨
    (s.pstate = .bound ∧ pend = false ∧ 4000 ≤ now - s.lastTs ∧ t = bdRevert now s) ∨
    (s.pstate = .bound ∧ pend = true ∧ t = bdDrain now frames s) := by
  cases hp : s.pstate <;> cases pend
  case noBind.false =>
    rw [tickCase_noBind_idle hp] at h
    split at h <;> cases h <;> simp <;> omega
  case noBind.true => rw [tickCase_noBind_pending hp] at h; cases h; simp
  case waitFirstSynchro.false => rw [tickCase_wait_idle hp] at h; cases h; simp
  case waitFirstSynchro.true => rw [tickCase_wait_pending hp] at h; cases h; simp
  case bound.false =>
    rw [tickCase_bound_idle hp] at h
    split at h <;> cases h <;> simp <;> omega
  case bound.true => rw [tickCase_bound_pending hp] at h; cases h; simp
  case reserved.false => rw [tickCase_reserved hp] at h; cases h
  case reserved.true => rw [tickCase_reserved hp] at h; cases h

/-! ### Frame classes (R74) -/

theorem frameClass_invalid {f : Frame} : frameClass f = .invalid ↔ validate f = false := by
  unfold frameClass; split <;> simp_all; split <;> simp

theorem frameClass_bind {f : Frame} : frameClass f = .bind ↔ isBindFrame f := by
  unfold frameClass isBindFrame; split <;> simp_all

theorem frameClass_control {f : Frame} : frameClass f = .control ↔ isControlFrame f := by
  unfold frameClass isControlFrame; split <;> simp_all

/-! ### Drains -/

/-- The WAIT_FIRST_SYNCHRO loop: any valid frame has the one effect of R182, however many there are. -/
theorem foldl_wsFrame (now : Nat) (frames : List Frame) (s : State) :
    frames.foldl (wsFrame now) s = if frames.any validate then wsValidFrame now s else s := by
  induction frames generalizing s with
  | nil => rfl
  | cons f fs ih =>
    rw [List.foldl_cons, ih]
    by_cases hv : validate f = true
    · simp [wsFrame, hv, wsValidFrame]
    · simp [wsFrame, hv]

/-- The BOUND loop over a batch without control frames: only valid_seen can change (R188). -/
theorem foldl_bdFrame_no_control (now : Nat) {frames : List Frame} (s : State)
    (h : ∀ f ∈ frames, ¬isControlFrame f) :
    frames.foldl (bdFrame now) s = { s with validSeen := s.validSeen || frames.any validate } := by
  induction frames generalizing s with
  | nil => simp
  | cons f fs ih =>
    rw [List.foldl_cons, ih _ fun g hg => h g (List.mem_cons_of_mem _ hg)]
    cases hc : frameClass f with
    | invalid => simp [bdFrame, hc, frameClass_invalid.mp hc]
    | bind => simp [bdFrame, hc, bdBindFrame, (frameClass_bind.mp hc).1]
    | control => exact absurd (frameClass_control.mp hc) (h f List.mem_cons_self)

/-- The BOUND loop changes LAST_TS and the working state only. -/
theorem foldl_bdFrame_frame (now : Nat) (frames : List Frame) (s : State) :
    ∃ ts vs ds v, frames.foldl (bdFrame now) s =
      { s with lastTs := ts, validSeen := vs, decodedSeen := ds, vals := v } := by
  induction frames generalizing s with
  | nil => exact ⟨s.lastTs, s.validSeen, s.decodedSeen, s.vals, rfl⟩
  | cons f fs ih =>
    rw [List.foldl_cons]
    obtain ⟨ts, vs, ds, v, h⟩ := ih (bdFrame now s f)
    rw [h]
    cases hc : frameClass f <;> exact ⟨ts, vs, ds, v, by simp [bdFrame, hc, bdBindFrame, bdControlFrame]⟩

/-- The BOUND loop up to its last control frame: that frame's record, and LAST_TS now (R188, R189). -/
theorem foldl_bdFrame_last_control (now : Nat) (pre : List Frame) {f : Frame} {post : List Frame} (s : State)
    (hf : isControlFrame f) (hpost : ∀ g ∈ post, ¬isControlFrame g) :
    (pre ++ f :: post).foldl (bdFrame now) s = bdControlFrame now f s := by
  rw [List.foldl_append, List.foldl_cons, foldl_bdFrame_no_control now _ hpost]
  obtain ⟨ts, vs, ds, v, h⟩ := foldl_bdFrame_frame now pre s
  rw [h]
  simp [bdFrame, frameClass_control.mpr hf, bdControlFrame]

/-- The NO_BIND loop without a bind frame (R177, R179). -/
theorem nbDrainFrames_no_bind (now : Nat) {frames : List Frame} (s : State) (h : ∀ f ∈ frames, ¬isBindFrame f) :
    nbDrainFrames now frames s = (s.emit .clearRxFlag).returnStatus .notBound := by
  induction frames with
  | nil => rfl
  | cons f fs ih =>
    have ih := ih fun g hg => h g (List.mem_cons_of_mem _ hg)
    cases hc : frameClass f with
    | invalid => simp only [nbDrainFrames, hc, ih]
    | control => simp only [nbDrainFrames, hc, ih]
    | bind => exact absurd (frameClass_bind.mp hc) (h f List.mem_cons_self)

/-- The NO_BIND loop stops at the first bind frame (R177). -/
theorem nbDrainFrames_first_bind (now : Nat) {pre : List Frame} {f : Frame} (post : List Frame) (s : State)
    (hpre : ∀ g ∈ pre, ¬isBindFrame g) (hf : isBindFrame f) :
    nbDrainFrames now (pre ++ f :: post) s = nbBindFrame now f s := by
  induction pre with
  | nil => simp only [List.nil_append, nbDrainFrames, frameClass_bind.mpr hf]
  | cons g gs ih =>
    have ih := ih fun k hk => hpre k (List.mem_cons_of_mem _ hk)
    cases hc : frameClass g with
    | invalid => simp only [List.cons_append, nbDrainFrames, hc, ih]
    | control => simp only [List.cons_append, nbDrainFrames, hc, ih]
    | bind => exact absurd (frameClass_bind.mp hc) (hpre g List.mem_cons_self)

/-! ### Each case of TICK as one record update -/

theorem nbStay_eq (s : State) : nbStay s = { s with result := .status .notBound, commands := [] } := rfl

theorem wsIdle_eq (s : State) : wsIdle s = { s with result := .status .bindInProgress, commands := [] } := rfl

theorem bdStay_eq (s : State) : bdStay s = { s with result := .status .boundNoValues, commands := [] } := rfl

theorem nbHop_eq (now : Nat) (s : State) :
    nbHop now s = { s with
      bindIdx := s.bindIdx + 1
      progChan := bindChannels.get (s.bindIdx + 1)
      lastTs := now
      result := .status .notBound
      commands := [.setChannel (bindChannels.get (s.bindIdx + 1))] } := rfl

theorem bdRevert_eq (now : Nat) (s : State) :
    bdRevert now s = { s with
      progAddr := Config.bindAddress
      bindIdx := 0
      progChan := bindChannels.c0
      lastTs := now
      pstate := .noBind
      result := .status .boundNoValues
      commands := [.setAddress Config.bindAddress, .setChannel bindChannels.c0] } := rfl

theorem nbDrain_no_bind (now : Nat) {frames : List Frame} (s : State) (h : ∀ f ∈ frames, ¬isBindFrame f) :
    nbDrain now frames s = { s.clearWorking with
      result := .status .notBound
      commands := [.clearRxFlag] } := by
  rw [nbDrain, nbDrainFrames_no_bind now _ h]; rfl

theorem nbDrain_first_bind (now : Nat) {pre : List Frame} {f : Frame} (post : List Frame) (s : State)
    (hpre : ∀ g ∈ pre, ¬isBindFrame g) (hf : isBindFrame f) :
    nbDrain now (pre ++ f :: post) s = { s.clearWorking with
      txAddr := f.address
      progAddr := f.address
      hopTable := deriveHopTable f.f4
      hopIdx := 0
      progChan := (deriveHopTable f.f4).c0
      lastTs := now
      pstate := .waitFirstSynchro
      result := .status .bindInProgress
      commands := [.setAddress f.address, .setChannel (deriveHopTable f.f4).c0, .flushRx, .clearRxFlag] } := by
  rw [nbDrain, nbDrainFrames_first_bind now post _ hpre hf]; rfl

/-- A NO_BIND drain binds to a frame of its batch, or finds none. -/
theorem nbDrain_cases (frames : List Frame) :
    (∀ f ∈ frames, ¬isBindFrame f) ∨
      ∃ pre f post, frames = pre ++ f :: post ∧ (∀ g ∈ pre, ¬isBindFrame g) ∧ isBindFrame f := by
  induction frames with
  | nil => exact .inl fun f hf => absurd hf List.not_mem_nil
  | cons g gs ih =>
    by_cases hg : isBindFrame g
    · exact .inr ⟨[], g, gs, rfl, fun _ h => absurd h List.not_mem_nil, hg⟩
    · rcases ih with h | ⟨pre, f, post, rfl, hpre, hf⟩
      · exact .inl fun f hf => (List.mem_cons.mp hf).elim (fun e => e ▸ hg) (h f)
      · exact .inr ⟨g :: pre, f, post, rfl, fun k hk => (List.mem_cons.mp hk).elim (fun e => e ▸ hg) (hpre k), hf⟩

theorem wsDrain_no_valid (now : Nat) {frames : List Frame} (s : State) (h : frames.any validate = false) :
    wsDrain now frames s = { s.clearWorking with
      result := .status .bindInProgress
      commands := [.clearRxFlag] } := by
  simp only [wsDrain, foldl_wsFrame, h, Bool.false_eq_true, if_false]; rfl

theorem wsDrain_valid (now : Nat) {frames : List Frame} (s : State) (h : frames.any validate = true) :
    wsDrain now frames s = { s.clearWorking with
      pstate := .bound
      lastTs := now
      hopIdx := s.hopIdx + 1
      progChan := s.hopTable.get (s.hopIdx + 1)
      result := .status .bindInProgress
      commands := [.clearRxFlag, .setChannel (s.hopTable.get (s.hopIdx + 1))] } := by
  simp only [wsDrain, foldl_wsFrame, h, if_true]; rfl

theorem bdDrain_no_valid (now : Nat) {frames : List Frame} (s : State) (hc : ∀ f ∈ frames, ¬isControlFrame f)
    (h : frames.any validate = false) :
    bdDrain now frames s = { s.clearWorking with
      result := .status .boundNoValues
      commands := [.clearRxFlag] } := by
  simp only [bdDrain, foldl_bdFrame_no_control now _ hc, h]; rfl

theorem bdDrain_bind_only (now : Nat) {frames : List Frame} (s : State) (hc : ∀ f ∈ frames, ¬isControlFrame f)
    (h : frames.any validate = true) :
    bdDrain now frames s = { s.clearWorking with
      hopIdx := s.hopIdx + 1
      progChan := s.hopTable.get (s.hopIdx + 1)
      result := .status .boundNoValues
      commands := [.clearRxFlag, .setChannel (s.hopTable.get (s.hopIdx + 1))] } := by
  simp only [bdDrain, foldl_bdFrame_no_control now _ hc, h, Bool.or_true]; rfl

theorem bdDrain_last_control (now : Nat) (pre : List Frame) {f : Frame} {post : List Frame} (s : State)
    (hf : isControlFrame f) (hpost : ∀ g ∈ post, ¬isControlFrame g) :
    bdDrain now (pre ++ f :: post) s = { s.clearWorking with
      out := some (decodeControls f)
      lastTs := now
      hopIdx := s.hopIdx + 1
      progChan := s.hopTable.get (s.hopIdx + 1)
      result := .status .boundNewValues
      commands := [.clearRxFlag, .setChannel (s.hopTable.get (s.hopIdx + 1))] } := by
  simp only [bdDrain, foldl_bdFrame_last_control now pre _ hf hpost]; rfl

/-- A BOUND drain has a last control frame, or none. -/
theorem bdDrain_cases (frames : List Frame) :
    (∀ f ∈ frames, ¬isControlFrame f) ∨
      ∃ pre f post, frames = pre ++ f :: post ∧ isControlFrame f ∧ ∀ g ∈ post, ¬isControlFrame g := by
  induction frames with
  | nil => exact .inl fun f hf => absurd hf List.not_mem_nil
  | cons g gs ih =>
    rcases ih with h | ⟨pre, f, post, rfl, hf, hpost⟩
    · by_cases hg : isControlFrame g
      · exact .inr ⟨[], g, gs, rfl, hg, h⟩
      · exact .inl fun f hf => (List.mem_cons.mp hf).elim (fun e => e ▸ hg) (h f)
    · exact .inr ⟨g :: pre, f, post, rfl, hf, hpost⟩

end Sys2Proof.Machine
end

