-- ==== Sys2Proof/Laws/Step.lean ====
section
/-! SUPPORT. What one step can do, and what the decoder can give. -/

namespace Sys2Proof

open Sys2Proof.Machine

/-- Reading back the bytes of a batch gives the batch. -/
theorem readFrames_writeFrames (frames : List Frame) : readFrames frames.length (writeFrames frames) = some frames := by
  induction frames with
  | nil => rfl
  | cons f fs ih => simp [writeFrames, Frame.toBytes, readFrames, ih]

/-- Only a batch of that many frames, ten bytes each, reads as frames (R55, R83). -/
theorem readFrames_eq_some {n : Nat} {bytes : List Byte} {frames : List Frame}
    (h : readFrames n bytes = some frames) : frames.length = n ∧ bytes = writeFrames frames := by
  induction n generalizing bytes frames with
  | zero =>
    cases bytes with
    | nil => cases h; exact ⟨rfl, rfl⟩
    | cons b bs => cases h
  | succ n ih =>
    unfold readFrames at h
    split at h
    · next heq => exact absurd heq (Nat.succ_ne_zero n)
    · next heq => exact absurd heq (Nat.succ_ne_zero n)
    · next heq =>
      cases heq
      rw [Option.map_eq_some_iff] at h
      obtain ⟨fs, hfs, rfl⟩ := h
      obtain ⟨hlen, hbytes⟩ := ih hfs
      simp [writeFrames, Frame.toBytes, hlen, hbytes]
    · cases h

@[simp] theorem readFrames_toBytes (f : Frame) : readFrames 1 f.toBytes = some [f] := rfl

end Sys2Proof

namespace Sys2Proof.Machine

open Sys2Proof

/-- A step answers a next state by reading OUT, or by running an instruction that a transaction decodes to. -/
theorem step_next {s t : State} (h : step s = .next t) :
    (∃ rest r, s.requests = .readOut :: rest ∧ s.out = some r ∧
      t = ({ s with requests := rest }.unitResult (.record r))) ∨
    (∃ now bytes rest i, s.requests = .transaction now bytes :: rest ∧ decodeTransaction now bytes = .ok i ∧
      exec i { s with requests := rest } = .next t) := by
  unfold step takeRequest at h
  cases hr : s.requests with
  | nil => simp [hr] at h
  | cons r rest =>
    cases r with
    | readOut =>
      simp only [hr, readOut] at h
      cases ho : s.out with
      | none => simp [ho] at h
      | some r =>
        simp only [ho, Host.Outcome.next.injEq] at h
        exact .inl ⟨rest, r, rfl, rfl, h.symm⟩
    | transaction now bytes =>
      simp only [hr, decode] at h
      cases hd : decodeTransaction now bytes with
      | error e => simp [hd] at h
      | ok i =>
        simp only [hd] at h
        exact .inr ⟨now, bytes, rest, i, rfl, hd, h⟩

end Sys2Proof.Machine
end

