-- ==== Sys2Proof/Laws/PerInstr.lean ====
section
/-! SUPPORT. Statements made for each instruction as syntax. EncodingLength: the transaction the encoder writes for a
well-formed instruction has exactly the bytes that its own fields say (spec/30_encoding.md R83). -/

namespace Sys2Proof.Laws.EncodingLength

open Sys2Proof Sys2Proof.Machine

/-- The transaction of an instruction is as long as its command byte and its NFR byte make it (R83). -/
def Statement (i : Instr) : Prop :=
  wellFormed i = true → ∀ now bytes, encode i = some (.transaction now bytes) → bytes.length = transactionLength bytes

/-- Ten bytes for each frame. -/
theorem writeFrames_length (frames : List Frame) : (writeFrames frames).length = 10 * frames.length := by
  induction frames with
  | nil => rfl
  | cons f fs ih =>
    simp only [writeFrames, List.length_append, ih, List.length_cons, Frame.toBytes, List.length_nil]
    omega

/-- A reserved command byte stands alone. -/
theorem reserved_length {cmd : Byte} {row : CommandRow} (h : commandRow cmd = row)
    (hr : row ∈ [CommandRow.opc9, .opcAB, .opcCF, .bit5, .bit6, .bit7, .pendNotTick]) :
    transactionLength [cmd] = 1 := by
  subst h
  unfold transactionLength
  cases hc : commandRow cmd <;> simp [hc] at hr ⊢

theorem reset (now : Nat) : Statement (.reset now) := by
  intro _ _ _ h; cases h; rfl

theorem tick (pend : Bool) (now : Nat) (frames : List Frame) : Statement (.tick pend now frames) := by
  intro hw t bytes h
  cases h
  have hn : (BitVec.ofNat 8 frames.length).toNat = frames.length := by
    simp only [wellFormed, fitsNfr, decide_eq_true_eq] at hw
    simp only [BitVec.toNat_ofNat]
    omega
  cases pend <;> show _ = 2 + 10 * (BitVec.ofNat 8 frames.length).toNat <;>
    simp only [hn, List.length_cons, batchBytes, writeFrames_length] <;> omega

theorem checksum (f : Frame) : Statement (.checksum f) := by
  intro _ _ _ h; cases h; rfl

theorem validate (f : Frame) : Statement (.validate f) := by
  intro _ _ _ h; cases h; rfl

theorem isBindMarker (f : Frame) : Statement (.isBindMarker f) := by
  intro _ _ _ h; cases h; rfl

theorem decodeControls (f : Frame) : Statement (.decodeControls f) := by
  intro _ _ _ h; cases h; rfl

theorem deriveHopTable (a : Byte) : Statement (.deriveHopTable a) := by
  intro _ _ _ h; cases h; rfl

theorem fold8 (v : Byte) : Statement (.fold8 v) := by
  intro _ _ _ h; cases h; rfl

theorem fold6 (v : Byte) : Statement (.fold6 v) := by
  intro _ _ _ h; cases h; rfl

theorem reservedOpc9 (cmd : Byte) : Statement (.reservedOpc9 cmd) := by
  intro hw t bytes h
  cases h
  have hrow : commandRow cmd = .opc9 := by revert cmd; decide
  exact (reserved_length hrow (by decide)).symm

theorem reservedOpcAB (cmd : Byte) : Statement (.reservedOpcAB cmd) := by
  intro hw t bytes h
  cases h
  have hrow : commandRow cmd = .opcAB := by revert cmd; decide
  exact (reserved_length hrow (by decide)).symm

theorem reservedOpcCF (cmd : Byte) : Statement (.reservedOpcCF cmd) := by
  intro hw t bytes h
  cases h
  have hrow : commandRow cmd = .opcCF := by revert cmd; decide
  exact (reserved_length hrow (by decide)).symm

theorem reservedBit5 (cmd : Byte) : Statement (.reservedBit5 cmd) := by
  intro hw t bytes h
  cases h
  have hrow : commandRow cmd = .bit5 := by revert cmd; decide
  exact (reserved_length hrow (by decide)).symm

theorem reservedBit6 (cmd : Byte) : Statement (.reservedBit6 cmd) := by
  intro hw t bytes h
  cases h
  have hrow : commandRow cmd = .bit6 := by revert cmd; decide
  exact (reserved_length hrow (by decide)).symm

theorem reservedBit7 (cmd : Byte) : Statement (.reservedBit7 cmd) := by
  intro hw t bytes h
  cases h
  have hrow : commandRow cmd = .bit7 := by revert cmd; decide
  exact (reserved_length hrow (by decide)).symm

theorem reservedPendNotTick (cmd : Byte) : Statement (.reservedPendNotTick cmd) := by
  intro hw t bytes h
  cases h
  have hrow : commandRow cmd = .pendNotTick := by revert cmd; decide
  exact (reserved_length hrow (by decide)).symm

theorem tickNbStay (now : Nat) : Statement (.tickNbStay now) := by
  intro _ _ _ h; cases h

theorem tickNbHop (now : Nat) : Statement (.tickNbHop now) := by
  intro _ _ _ h; cases h

theorem tickNbDrain (now : Nat) (frames : List Frame) : Statement (.tickNbDrain now frames) := by
  intro _ _ _ h; cases h

theorem tickWsIdle (now : Nat) : Statement (.tickWsIdle now) := by
  intro _ _ _ h; cases h

theorem tickWsDrain (now : Nat) (frames : List Frame) : Statement (.tickWsDrain now frames) := by
  intro _ _ _ h; cases h

theorem tickBdStay (now : Nat) : Statement (.tickBdStay now) := by
  intro _ _ _ h; cases h

theorem tickBdRevert (now : Nat) : Statement (.tickBdRevert now) := by
  intro _ _ _ h; cases h

theorem tickBdDrain (now : Nat) (frames : List Frame) : Statement (.tickBdDrain now frames) := by
  intro _ _ _ h; cases h

theorem tickReservedPstate3 (pend : Bool) (now : Nat) (frames : List Frame) : Statement (.tickReservedPstate3 pend now frames) := by
  intro _ _ _ h; cases h

theorem hopR1Special6 (a : Byte) : Statement (.hopR1Special6 a) := by
  intro _ _ _ h; cases h

theorem hopR1 (a : Byte) : Statement (.hopR1 a) := by
  intro _ _ _ h; cases h

theorem hopR2Special16 (a : Byte) : Statement (.hopR2Special16 a) := by
  intro _ _ _ h; cases h

theorem hopR2 (a : Byte) : Statement (.hopR2 a) := by
  intro _ _ _ h; cases h

theorem hopR3A (a : Byte) : Statement (.hopR3A a) := by
  intro _ _ _ h; cases h

theorem hopR3B (a : Byte) : Statement (.hopR3B a) := by
  intro _ _ _ h; cases h

theorem hopFixed1E (a : Byte) : Statement (.hopFixed1E a) := by
  intro _ _ _ h; cases h

theorem hopFixed1F (a : Byte) : Statement (.hopFixed1F a) := by
  intro _ _ _ h; cases h

theorem frameInvalid (f : Frame) : Statement (.frameInvalid f) := by
  intro _ _ _ h; cases h

theorem frameNbBind (now : Nat) (f : Frame) : Statement (.frameNbBind now f) := by
  intro _ _ _ h; cases h

theorem frameNbOther (f : Frame) : Statement (.frameNbOther f) := by
  intro _ _ _ h; cases h

theorem frameWsValid (now : Nat) (f : Frame) : Statement (.frameWsValid now f) := by
  intro _ _ _ h; cases h

theorem frameBdBind (f : Frame) : Statement (.frameBdBind f) := by
  intro _ _ _ h; cases h

theorem frameBdControl (now : Nat) (f : Frame) : Statement (.frameBdControl now f) := by
  intro _ _ _ h; cases h

theorem hopAdvance : Statement (.hopAdvance) := by
  intro _ _ _ h; cases h

theorem bindChannelAdvance : Statement (.bindChannelAdvance) := by
  intro _ _ _ h; cases h

end Sys2Proof.Laws.EncodingLength
end

