-- ==== Sys2Proof/Machine/Text.lean ====
section
/-! DEFINITION. The textual syntax of transactions (spec/30_encoding.md R84, R75): notation for the operations of the
host, as characters. DESIGN CHOICE: log entry 19, safe. -/

namespace Sys2Proof.Machine

open Sys2Proof

/-- A hexadecimal digit, capital letters (R75). -/
def hexDigit (d : BitVec 4) : Char :=
  if d.toNat < 10 then Char.ofNat (48 + d.toNat) else Char.ofNat (55 + d.toNat)

/-- The two hexadecimal digits of a byte. -/
def hexByte (b : Byte) : List Char :=
  [hexDigit (b.extractLsb' 4 4), hexDigit (b.extractLsb' 0 4)]

/-- A frame is 20 hexadecimal digits, f[0] first (R75, R84). -/
def frameText (f : Frame) : List Char :=
  f.toBytes.flatMap hexByte

/-- The frames of a batch, a comma and a space between them (R84). -/
def batchText : List Frame → List Char
  | [] => []
  | [f] => frameText f
  | f :: g :: fs => frameText f ++ [',', ' '] ++ batchText (g :: fs)

/-- A byte operand, `0x<hh>` (R84). -/
def byteText (b : Byte) : List Char :=
  ['0', 'x'] ++ hexByte b

/-- The time operand, `t=<decimal ms>` (R84). -/
def timeText (now : Nat) : List Char :=
  ['t', '='] ++ Nat.toDigits 10 now

/-- The line of a transaction (R84); none for what a host cannot write. -/
def transactionText (i : Instr) : Option (List Char) :=
  match i with
  | .reset now => some (['R', 'E', 'S', 'E', 'T', ' '] ++ timeText now)
  | .tick pend now frames =>
    some (['T', 'I', 'C', 'K', ' '] ++ timeText now
      ++ (if pend then [' ', 'p', 'e', 'n', 'd', 'i', 'n', 'g'] else [])
      ++ [' ', 'f', 'r', 'a', 'm', 'e', 's', '=', '['] ++ batchText frames ++ [']'])
  | .checksum f => some (['C', 'H', 'E', 'C', 'K', 'S', 'U', 'M', ' '] ++ frameText f)
  | .validate f => some (['V', 'A', 'L', 'I', 'D', 'A', 'T', 'E', ' '] ++ frameText f)
  | .isBindMarker f => some (['I', 'S', 'B', 'I', 'N', 'D', ' '] ++ frameText f)
  | .decodeControls f => some (['D', 'E', 'C', 'O', 'D', 'E', ' '] ++ frameText f)
  | .deriveHopTable a => some (['D', 'E', 'R', 'I', 'V', 'E', ' '] ++ byteText a)
  | .fold8 v => some (['F', 'O', 'L', 'D', '8', ' '] ++ byteText v)
  | .fold6 v => some (['F', 'O', 'L', 'D', '6', ' '] ++ byteText v)
  | .reservedOpc9 _ | .reservedOpcAB _ | .reservedOpcCF _ | .reservedBit5 _ | .reservedBit6 _ | .reservedBit7 _
  | .reservedPendNotTick _ | .tickNbStay _ | .tickNbHop _ | .tickNbDrain _ _ | .tickWsIdle _ | .tickWsDrain _ _
  | .tickBdStay _ | .tickBdRevert _ | .tickBdDrain _ _ | .tickReservedPstate3 _ _ _ | .hopR1Special6 _ | .hopR1 _
  | .hopR2Special16 _ | .hopR2 _ | .hopR3A _ | .hopR3B _ | .hopFixed1E _ | .hopFixed1F _ | .frameInvalid _
  | .frameNbBind _ _ | .frameNbOther _ | .frameWsValid _ _ | .frameBdBind _ | .frameBdControl _ _ | .hopAdvance
  | .bindChannelAdvance => none

end Sys2Proof.Machine
end

