-- ==== Sys2Proof/Tests/Slice0.lean ====
section
/-! SUPPORT. Tests of the model against the spec's own encodings (spec/30_encoding.md) and vectors
(spec/95_test_vectors.md), the smoke tests of wellFormed, and a witness for the hypotheses of each statement. -/

namespace Sys2Proof.Tests

open Sys2Proof Sys2Proof.Machine

/-! ### Named frames and states of spec/95_test_vectors.md -/

def frameFA : Frame := ⟨0x00, 0x00, 0x00, 0x00, 0x00, 0x00, 0x00, 0x00, 0x00, 0x55⟩
def frameFB : Frame := ⟨0x40, 0x10, 0x00, 0x00, 0x40, 0x00, 0x00, 0x20, 0x00, 0x85⟩
def frameFC : Frame := ⟨0x80, 0x85, 0x7F, 0x00, 0xC0, 0xE5, 0x60, 0x21, 0x00, 0x73⟩
def frameFD : Frame := ⟨0xC8, 0xFF, 0x80, 0x01, 0x00, 0x00, 0x00, 0x00, 0x00, 0x0B⟩
def frameFI : Frame := ⟨0x00, 0x00, 0x00, 0x00, 0x00, 0x00, 0x00, 0x00, 0x00, 0x00⟩
def frameFIB : Frame := ⟨0x00, 0x00, 0x00, 0x00, 0x16, 0xAA, 0xAA, 0xAA, 0x00, 0x12⟩
def frameFB16 : Frame := ⟨0x00, 0x00, 0x00, 0x00, 0x16, 0xAA, 0xAA, 0xAA, 0x00, 0x11⟩
def frameFBX : Frame := ⟨0x55, 0x44, 0x33, 0x22, 0x16, 0xAA, 0xAA, 0xAA, 0x00, 0x11⟩
def frameFB1E : Frame := ⟨0x00, 0x00, 0x00, 0x00, 0x1E, 0xAA, 0xAA, 0xAA, 0x00, 0x09⟩

/-- S_WS: the state of the vectors after the bind at t = 50. -/
def stWait : State := nbDrain 50 [frameFB16] State.reset

/-- S_BD: the state of the vectors after the first valid frame at t = 60. -/
def stBound : State := wsDrain 60 [frameFA] stWait

/-- The next state of an answer, if it has one. -/
def nextOf (a : Answer) : Option State :=
  match a with
  | .next t => some t
  | .fault _ => none
  | .refused _ => none

/-- The refusal of an answer, if it is one. -/
def refusalOf (a : Answer) : Option Refusal :=
  match a with
  | .next _ => none
  | .fault _ => none
  | .refused r => some r

/-! ### wellFormed refuses an ill-formed term for each of its checks -/

theorem test_wf_tick : wellFormed (.tick true 0 (List.replicate 256 frameFA)) = false := by
  simp only [wellFormed, fitsNfr, List.length_replicate]; decide
theorem test_wf_nbDrain : wellFormed (.tickNbDrain 0 (List.replicate 256 frameFA)) = false := by
  simp only [wellFormed, fitsNfr, List.length_replicate]; decide
theorem test_wf_wsDrain : wellFormed (.tickWsDrain 0 (List.replicate 256 frameFA)) = false := by
  simp only [wellFormed, fitsNfr, List.length_replicate]; decide
theorem test_wf_bdDrain : wellFormed (.tickBdDrain 0 (List.replicate 256 frameFA)) = false := by
  simp only [wellFormed, fitsNfr, List.length_replicate]; decide
theorem test_wf_pstate3 : wellFormed (.tickReservedPstate3 true 0 (List.replicate 256 frameFA)) = false := by
  simp only [wellFormed, fitsNfr, List.length_replicate]; decide
theorem test_wf_tick_255 : wellFormed (.tick true 0 (List.replicate 255 frameFA)) = true := by
  simp only [wellFormed, fitsNfr, List.length_replicate]; decide
theorem test_wf_reserved :
    ([.reservedOpc9 0x08, .reservedOpcAB 0x09, .reservedOpcCF 0x0B, .reservedBit5 0x40, .reservedBit5 0x29,
      .reservedBit6 0x60, .reservedBit6 0x4A, .reservedBit7 0xC0, .reservedBit7 0x8C, .reservedPendNotTick 0x11,
      .reservedPendNotTick 0x02, .reservedPendNotTick 0x19] : List Instr).any wellFormed = false := by decide
theorem test_wf_hop :
    ([.hopR1Special6 0x07, .hopR1 0x06, .hopR1 0x10, .hopR2Special16 0x17, .hopR2 0x16, .hopR2 0x18, .hopR3A 0x1C,
      .hopR3B 0x1E, .hopFixed1E 0x1F, .hopFixed1F 0x1E] : List Instr).any wellFormed = false := by decide
theorem test_wf_frame :
    ([.frameInvalid frameFA, .frameNbBind 0 frameFIB, .frameNbBind 0 frameFA, .frameNbOther frameFB16,
      .frameNbOther frameFI, .frameWsValid 0 frameFI, .frameBdBind frameFIB, .frameBdBind frameFC,
      .frameBdControl 0 frameFBX, .frameBdControl 0 frameFI] : List Instr).any wellFormed = false := by decide

/-! ### Decoding: each constructor from a word written out from R71, R73, R76, R77 -/

theorem test_decode_reset : decode (.transaction 9 [0x00]) = .ok (.reset 9) := rfl
theorem test_decode_tick_idle : decode (.transaction 9 [0x01, 0x00]) = .ok (.tick false 9 []) := rfl
theorem test_decode_tick_pending :
    decode (.transaction 9 [0x11, 0x02, 0, 0, 0, 0, 0, 0, 0, 0, 0, 0x55,
      0xC8, 0xFF, 0x80, 0x01, 0, 0, 0, 0, 0, 0x0B]) = .ok (.tick true 9 [frameFA, frameFD]) := rfl
theorem test_decode_codec :
    decode (.transaction 0 [0x02, 0x80, 0x85, 0x7F, 0, 0xC0, 0xE5, 0x60, 0x21, 0, 0x73]) = .ok (.checksum frameFC) ∧
    decode (.transaction 0 [0x03, 0x80, 0x85, 0x7F, 0, 0xC0, 0xE5, 0x60, 0x21, 0, 0x73]) = .ok (.validate frameFC) ∧
    decode (.transaction 0 [0x04, 0x80, 0x85, 0x7F, 0, 0xC0, 0xE5, 0x60, 0x21, 0, 0x73])
      = .ok (.isBindMarker frameFC) ∧
    decode (.transaction 0 [0x05, 0x80, 0x85, 0x7F, 0, 0xC0, 0xE5, 0x60, 0x21, 0, 0x73])
      = .ok (.decodeControls frameFC) := ⟨rfl, rfl, rfl, rfl⟩
theorem test_decode_bytes :
    decode (.transaction 0 [0x06, 0xE6]) = .ok (.deriveHopTable 0xE6) ∧
    decode (.transaction 0 [0x07, 0x85]) = .ok (.fold8 0x85) ∧
    decode (.transaction 0 [0x08, 0xE5]) = .ok (.fold6 0xE5) := ⟨rfl, rfl, rfl⟩
theorem test_decode_reserved :
    decode (.transaction 0 [0x09]) = .ok (.reservedOpc9 0x09) ∧
    decode (.transaction 0 [0x0B]) = .ok (.reservedOpcAB 0x0B) ∧
    decode (.transaction 0 [0x0E]) = .ok (.reservedOpcCF 0x0E) ∧
    decode (.transaction 0 [0x21]) = .ok (.reservedBit5 0x21) ∧
    decode (.transaction 0 [0x40]) = .ok (.reservedBit6 0x40) ∧
    decode (.transaction 0 [0x80]) = .ok (.reservedBit7 0x80) ∧
    decode (.transaction 0 [0x12]) = .ok (.reservedPendNotTick 0x12) := ⟨rfl, rfl, rfl, rfl, rfl, rfl, rfl⟩
theorem test_decode_refused :
    decode (.transaction 0 []) = .error .emptyTransaction ∧
    decode (.transaction 0 [0x01]) = .error .missingOperand ∧
    decode (.transaction 0 [0x06]) = .error .missingOperand ∧
    decode (.transaction 0 [0x00, 0x00]) = .error .trailingBytes ∧
    decode (.transaction 0 [0x11, 0x01, 0, 0, 0, 0, 0, 0, 0, 0, 0]) = .error .badFrameLength ∧
    decode (.transaction 0 [0x02, 0, 0, 0, 0, 0, 0, 0, 0, 0, 0, 0]) = .error .badFrameLength :=
  ⟨rfl, rfl, rfl, rfl, rfl, rfl⟩
theorem test_decode_selector :
    decode (.selector 0b000 127 200 []) = .ok (.tickNbStay 200) ∧
    decode (.selector 0b000 128 200 []) = .ok (.tickNbHop 200) ∧
    decode (.selector 0b001 500 600 [frameFA]) = .ok (.tickNbDrain 600 [frameFA]) ∧
    decode (.selector 0b010 9999 10000 []) = .ok (.tickWsIdle 10000) ∧
    decode (.selector 0b011 0 70 [frameFI]) = .ok (.tickWsDrain 70 [frameFI]) ∧
    decode (.selector 0b100 3999 4000 []) = .ok (.tickBdStay 4000) ∧
    decode (.selector 0b100 4000 4001 []) = .ok (.tickBdRevert 4001) ∧
    decode (.selector 0b101 8940 9000 [frameFI]) = .ok (.tickBdDrain 9000 [frameFI]) ∧
    decode (.selector 0b110 0 0 []) = .ok (.tickReservedPstate3 false 0 []) ∧
    decode (.selector 0b111 0 0 []) = .ok (.tickReservedPstate3 true 0 []) :=
  ⟨rfl, rfl, rfl, rfl, rfl, rfl, rfl, rfl, rfl, rfl⟩
theorem test_decode_seed :
    decode (.seed 0xE6) = .ok (.hopR1Special6 0xE6) ∧ decode (.seed 0x0F) = .ok (.hopR1 0x0F) ∧
    decode (.seed 0x36) = .ok (.hopR2Special16 0x36) ∧ decode (.seed 0x17) = .ok (.hopR2 0x17) ∧
    decode (.seed 0x18) = .ok (.hopR3A 0x18) ∧ decode (.seed 0x1C) = .ok (.hopR3B 0x1C) ∧
    decode (.seed 0x1E) = .ok (.hopFixed1E 0x1E) ∧ decode (.seed 0xFF) = .ok (.hopFixed1F 0xFF) :=
  ⟨rfl, rfl, rfl, rfl, rfl, rfl, rfl, rfl⟩
theorem test_decode_frame :
    decode (.frame .bound 5 [0, 0, 0, 0, 0x16, 0xAA, 0xAA, 0xAA, 0, 0x12]) = .ok (.frameInvalid frameFIB) ∧
    decode (.frame .noBind 5 [0, 0, 0, 0, 0x16, 0xAA, 0xAA, 0xAA, 0, 0x11]) = .ok (.frameNbBind 5 frameFB16) ∧
    decode (.frame .noBind 5 [0, 0, 0, 0, 0, 0, 0, 0, 0, 0x55]) = .ok (.frameNbOther frameFA) ∧
    decode (.frame .waitFirstSynchro 5 [0, 0, 0, 0, 0x16, 0xAA, 0xAA, 0xAA, 0, 0x11])
      = .ok (.frameWsValid 5 frameFB16) ∧
    decode (.frame .bound 5 [0, 0, 0, 0, 0x16, 0xAA, 0xAA, 0xAA, 0, 0x11]) = .ok (.frameBdBind frameFB16) ∧
    decode (.frame .bound 5 [0, 0, 0, 0, 0, 0, 0, 0, 0, 0x55]) = .ok (.frameBdControl 5 frameFA) :=
  ⟨rfl, rfl, rfl, rfl, rfl, rfl⟩

/-- The pseudo-frames of R85 are the named frames of the vectors. -/
theorem test_pseudo_frames :
    ctrlFrame 0x40 0x10 0 0 0x40 0 0 0x20 0 = frameFB ∧ bindFrameOf ⟨0x16, 0x22, 0x33, 0x44, 0x55⟩ = frameFBX := by
  decide

/-- R84: a line of the textual syntax. -/
theorem test_text : transactionText (.fold8 0xA5) = some ['F', 'O', 'L', 'D', '8', ' ', '0', 'x', 'A', '5'] := by
  decide

/-! ### The word interface -/

theorem test_tableWord_tick : decodeTableWord 8 0x11 = some (.tick true 0 []) := by decide
theorem test_tableWord_checksum : decodeTableWord 8 0x02 = some (.checksum frameFI) := by decide
theorem test_tableWord_wide : decodeTableWord 16 0x8507 = some (.fold8 0x85) := by decide
theorem test_withFetchWord_runs :
    (nextOf (step (State.reset.withFetchWord 8 0x11))).map (·.commands) = some [.clearRxFlag] := by decide
theorem test_withFetchWord_reserved : refusalOf (step (State.reset.withFetchWord 8 0x0F)) = some .reservedOpcode := by
  decide

/-! ### Vectors of spec/95_test_vectors.md -/

/-- V-CK-3, V-CK-4, V-CK-7, V-CK-9. -/
theorem test_checksum :
    checksum { frameFI with f0 := 0xAB } = 0x00 ∧ checksum { frameFI with f0 := 0x54 } = 0xA9 ∧
    checksum ⟨0xFF, 0xFF, 0xFF, 0xFF, 0xFF, 0xFF, 0xFF, 0xFF, 0xFF, 0⟩ = 0x54 ∧
    checksum { frameFI with f8 := 0x01 } = 0x56 := by decide
/-- V-VA-1 to V-VA-6. -/
theorem test_validate :
    [frameFA, frameFI, frameFB16, frameFIB, { frameFI with f9 := 0xAA }, { frameFI with f8 := 1, f9 := 0x55 }].map
      validate = [true, false, true, false, false, false] := by decide
/-- V-BM-1, V-BM-2, V-BM-3, V-BM-6. -/
theorem test_isBindMarker :
    [frameFB16, frameFIB, { frameFIB with f6 := 0xAB }, frameFC].map isBindMarker = [true, true, false, false] := by
  decide
/-- V-FD-1 to V-FD-8. -/
theorem test_fold8 :
    ([0x00, 0x01, 0x7F, 0x80, 0x81, 0x85, 0xFE, 0xFF].map fold8 : List Byte)
      = [0x00, 0x01, 0x7F, 0x00, 0xFF, 0xFB, 0x82, 0x81] := by decide
/-- V-FD-9 to V-FD-17. -/
theorem test_fold6 :
    ([0x00, 0x1F, 0x20, 0x21, 0x25, 0x3E, 0x3F, 0xE5, 0x2A].map fold6 : List Byte)
      = [0x00, 0x1F, 0x00, 0xFF, 0xFB, 0xE2, 0xE1, 0xFB, 0xF6] := by decide
/-- V-DC-3 and V-DC-4: bytes 0 to 6 of the record. -/
theorem test_decodeControls :
    (decodeControls frameFC).toBytes.take 7 = [0x80, 0xFB, 0x7F, 0x00, 0xFB, 0x00, 0xFF] ∧
    (decodeControls frameFD).toBytes.take 7 = [0xC8, 0x81, 0x00, 0x01, 0x00, 0x00, 0x00] := by decide
/-- R151: the table of every low5. -/
theorem test_deriveHopTable :
    (List.range 32).map (fun n => (deriveHopTable (BitVec.ofNat 8 n)).c0.toNat) =
      [0x0a, 0x0b, 0x0c, 0x0d, 0x0e, 0x0f, 0x11, 0x11, 0x12, 0x13, 0x14, 0x15, 0x16, 0x17, 0x18, 0x19,
       0x2a, 0x2b, 0x2c, 0x2d, 0x2e, 0x2f, 0x31, 0x31, 0x1a, 0x1b, 0x1c, 0x1d, 0x1e, 0x1f, 0x21, 0x21] := by decide
/-- V-HOP-6, V-HOP-8, V-HOP-12, V-HOP-14. -/
theorem test_deriveHopTable_vectors :
    deriveHopTable 0x16 = ⟨0x31, 0x11, 0x48, 0x28⟩ ∧ deriveHopTable 0x18 = ⟨0x1a, 0x3a, 0x12, 0x32⟩ ∧
    deriveHopTable 0xE6 = ⟨0x11, 0x21, 0x31, 0x41⟩ ∧ deriveHopTable 0xFF = ⟨0x21, 0x41, 0x19, 0x39⟩ := by decide
/-- V-RS-1: RESET from before reset makes the reset state. -/
theorem test_reset : nextOf (exec (.reset 0) State.powerUp) = some State.reset := rfl
/-- P1 and V-RF-8, from "Start: not reset": a first TICK is refused. -/
theorem test_fromPowerUp_tick :
    refusalOf (step { fromPowerUp.reset with requests := [.transaction 0 [0x01, 0x00]] }) = some .noReset := by decide
/-- V-TK-1, V-TK-2, V-TK-3. -/
theorem test_nbIdle :
    (nextOf (exec (idle 127) State.reset)).map (fun t => (t.bindIdx, t.commands)) = some (0, []) ∧
    (nextOf (exec (idle 128) State.reset)).map (fun t => (t.bindIdx, t.lastTs, t.progChan, t.commands))
      = some (1, 128, 0x30, [.setChannel 0x30]) ∧
    (nextOf (exec (idle 1000) State.reset)).map (fun t => (t.bindIdx, t.lastTs)) = some (1, 1000) := by decide
/-- V-TK-4: the bind-channel index wraps. -/
theorem test_nbHop_wraps :
    (fun t : State => (t.bindIdx, t.lastTs, t.progChan)) (nbHop 512 { State.reset with bindIdx := 3, lastTs := 384 })
      = (0, 512, 0x4b) := by decide
/-- V-TK-7: the first valid bind frame wins. -/
theorem test_nbDrain :
    (fun t : State => (t.pstate, t.hopTable, t.txAddr, t.lastTs, t.commands))
        (nbDrain 50 [frameFIB, frameFC, frameFBX, frameFB1E] State.reset)
      = (.waitFirstSynchro, ⟨0x31, 0x11, 0x48, 0x28⟩, ⟨0x16, 0x22, 0x33, 0x44, 0x55⟩, 50,
         [.setAddress ⟨0x16, 0x22, 0x33, 0x44, 0x55⟩, .setChannel 0x31, .flushRx, .clearRxFlag]) := by decide
/-- V-TK-11, V-TK-12. -/
theorem test_wsDrain :
    (fun t : State => (t.pstate, t.hopIdx, t.lastTs, t.txAddr.a1, t.commands)) (wsDrain 70 [frameFBX] stWait)
      = (.bound, 1, 70, 0x00, [.clearRxFlag, .setChannel 0x11]) ∧
    (wsDrain 70 [frameFA, frameFC, frameFD] stWait).hopIdx = 1 := by decide
/-- V-TK-13, V-TK-14. -/
theorem test_bdIdle :
    (nextOf (exec (idle 4059) stBound)).map (fun t => (t.pstate, t.result)) =
      some (.bound, .status .boundNoValues) ∧
    (nextOf (exec (idle 4060) stBound)).map (fun t => (t.pstate, t.result, t.lastTs, t.progChan, t.hopIdx)) =
      some (.noBind, .status .boundNoValues, 4060, 0x4b, 1) := by decide
/-- V-TK-16, V-TK-17: bytes 0 to 6 of OUT. -/
theorem test_bdDrain :
    ((bdDrain 100 [frameFB, frameFC] stBound).out.map (·.toBytes.take 7)
      = some [0x80, 0xFB, 0x7F, 0x00, 0xFB, 0x00, 0xFF]) ∧
    (fun t : State => (t.hopIdx, t.lastTs, t.txAddr.a1, t.result, t.commands)) (bdDrain 100 [frameFBX] stBound)
      = (2, 60, 0x00, .status .boundNoValues, [.clearRxFlag, .setChannel 0x48]) := by decide
/-- V-TK-19: the hop index wraps. -/
theorem test_hopAdvance_wraps :
    (nextOf (exec .hopAdvance { stBound with hopIdx := 3 })).map (fun t => (t.hopIdx, t.progChan)) =
      some (0, 0x31) := by decide
/-- V-RF-4, V-RF-7, V-RF-8. -/
theorem test_tick_refused :
    refusalOf (exec (.tick false 0 [frameFA]) State.reset) = some .framesWithoutPend ∧
    refusalOf (exec (idle 127) { State.reset with lastTs := 128 }) = some .timeBackwards ∧
    refusalOf (exec (idle 0) State.powerUp) = some .noReset := by decide

/-! ### Witnesses: states and operands that meet the hypotheses of the statements -/

/-- A pending TICK of one frame is accepted, whatever RXQ_DEPTH is. -/
theorem accepted_one {now : Nat} {s : State} (f : Frame) (hr : s.resetDone = true) (ht : s.lastTs ≤ now) :
    TickAccepted true now [f] s :=
  ⟨hr, ht, fun h => (by cases h), queueHolds_one⟩

theorem control_FA : isControlFrame frameFA := by unfold isControlFrame; decide
theorem control_FC : isControlFrame frameFC := by unfold isControlFrame; decide
theorem bind_FB16 : isBindFrame frameFB16 := by unfold isBindFrame; decide

theorem witness_ChecksumLaws :
    frameFA.payload = frameFI.payload ∧ frameFA ≠ frameFI ∧
    ({ frameFI with f0 := 0xFF } : Frame).payload.Perm ({ frameFI with f8 := 0xFF } : Frame).payload ∧
    ({ frameFI with f8 := 1 } : Frame).payload = [0, 0, 0, 0, 0, 0, 0, 0] ++ 1 :: [] ∧
    frameFI.payload = [] ++ 0 :: [0, 0, 0, 0, 0, 0, 0, 0] := by decide
theorem witness_FoldsAreSignMagnitude :
    128 ≤ (0x80 : Byte).toNat ∧ 32 ≤ (0x20 : Byte).toNat ∧ (0x3F : Byte).toNat < 64 ∧
    fold8 0xFF = fold8 0xFF ∧ fold8 0xFF ≠ 0 ∧ fold6 0x3F = fold6 0x3F ∧ fold6 0x3F ≠ 0 := by decide
theorem witness_HopCasesGiveTheirTables :
    ([0x06, 0x00, 0x0F, 0x16, 0x10, 0x17, 0x18, 0x1B, 0x1C, 0x1D, 0x1E, 0x1F].map
      fun a : Byte => a.toNat % 32) = [6, 0, 15, 22, 16, 23, 24, 27, 28, 29, 30, 31] := by decide
theorem witness_HopAdvanceRetunes : State.reset.resetDone = true := rfl
theorem witness_BindChannelAdvanceRetunes : State.reset.resetDone = true := rfl
theorem witness_ResetStateComesFromPowerUp :
    State.powerUp.resetDone = false ∧ (∀ now, Request.transaction now [0x00] ∉ [Request.transaction 5 [0x07, 0x85]]) ∧
    fromPowerUp.run 1 { State.powerUp with requests := [.transaction 5 [0x07, 0x85]] } =
      .next (State.powerUp.unitResult (.signed 0xFB)) ∧
    fromPowerUp.run 1 { State.powerUp with requests := [.transaction 5 [0x00]] } =
      .next { State.reset with lastTs := 5 } := ⟨rfl, by simp, rfl, rfl⟩
theorem witness_TickRefusedUnlessDutiesHold :
    ([0] : List Byte).length ≠ 10 * (0x00 : Byte).toNat ∧ ([] : List Byte).length = 10 * (0x00 : Byte).toNat ∧
    frameFA.toBytes.length = 10 * (0x01 : Byte).toNat := by decide
theorem witness_TickRefusalNamesItsReason : exec (.tick false 0 []) State.powerUp = .refused .noReset := rfl
theorem witness_TickFaultsOnReservedPstate :
    TickAccepted true 5 [frameFA] { State.reset with pstate := .reserved } ∧
    exec (.tick true 5 []) { State.reset with pstate := .reserved } = .fault .reservedPstate :=
  ⟨accepted_one _ rfl (by decide), rfl⟩
theorem witness_ReservedCommandBytesAreRefused :
    ({ State.reset with requests := [.transaction 0 [0x19]] } : State).requests = .transaction 0 [0x19] :: [] ∧
    9 ≤ (0x19 : Byte).toNat % 16 ∧ (0x28 : Byte).toNat % 16 < 9 ∧ 32 ≤ (0x20 : Byte).toNat ∧
    (0x18 : Byte).toNat % 16 < 9 ∧ (0x18 : Byte).toNat % 16 ≠ 1 ∧ 16 ≤ (0x10 : Byte).toNat := by decide
theorem witness_OutReadFaultsUntilWritten :
    ({ State.reset with requests := [.readOut] } : State).requests = .readOut :: [] ∧
    ({ State.reset with requests := [.readOut] } : State).out = none ∧
    ({ stBound with out := some (decodeControls frameFC), requests := [.readOut] } : State).out
      = some (decodeControls frameFC) := ⟨rfl, rfl, rfl⟩
theorem witness_TickDispatchesOnStateAndPend :
    TickAccepted false 128 [] State.reset ∧ TickAccepted true 0 [frameFA] State.reset :=
  ⟨⟨rfl, by decide, fun _ => rfl, rfl⟩, accepted_one _ rfl (by decide)⟩
theorem witness_TickRunsItsSelectorWord : TickAccepted true 4060 [frameFB16] stBound :=
  accepted_one _ rfl (by decide)
theorem witness_AcceptedTickCompletes : TickAccepted true 70 [frameFI] stWait ∧ stWait.pstate ≠ .reserved :=
  ⟨accepted_one _ rfl (by decide), by decide⟩
theorem witness_SearchStaysOnChannel :
    State.reset.resetDone = true ∧ State.reset.pstate = .noBind ∧ State.reset.lastTs ≤ 127 ∧
    127 - State.reset.lastTs < 128 := by decide
theorem witness_SearchHopsAfterDwell :
    State.reset.resetDone = true ∧ State.reset.pstate = .noBind ∧ State.reset.lastTs ≤ 128 ∧
    128 ≤ 128 - State.reset.lastTs := by decide
theorem witness_SearchBindsToFirstBindFrame :
    TickAccepted true 50 ([] ++ frameFB16 :: []) State.reset ∧ State.reset.pstate = .noBind ∧
    (∀ g ∈ ([] : List Frame), ¬isBindFrame g) ∧ isBindFrame frameFB16 :=
  ⟨accepted_one _ rfl (by decide), rfl, fun _ h => absurd h List.not_mem_nil, bind_FB16⟩
theorem witness_SearchPassesOverOtherFrames :
    TickAccepted true 500 [frameFIB] State.reset ∧ State.reset.pstate = .noBind ∧
    ∀ g ∈ [frameFIB], ¬isBindFrame g :=
  ⟨accepted_one _ rfl (by decide), rfl, by unfold isBindFrame; decide⟩
theorem witness_WaitHasNoTimeout :
    stWait.resetDone = true ∧ stWait.lastTs ≤ 100000 ∧ stWait.pstate = .waitFirstSynchro ∧
    TickAccepted true 100000 [frameFI] stWait ∧ ∀ f ∈ [frameFI], validate f = false :=
  ⟨rfl, by decide, rfl, accepted_one _ rfl (by decide), by decide⟩
theorem witness_FirstValidFrameCompletesBind :
    TickAccepted true 70 [frameFBX] stWait ∧ stWait.pstate = .waitFirstSynchro ∧
    ∃ f ∈ [frameFBX], validate f = true :=
  ⟨accepted_one _ rfl (by decide), rfl, by decide⟩
theorem witness_LinkStaysBound :
    stBound.resetDone = true ∧ stBound.pstate = .bound ∧ stBound.lastTs ≤ 4059 ∧ 4059 - stBound.lastTs < 4000 := by
  decide
theorem witness_SignalLossRevertsToSearch :
    stBound.resetDone = true ∧ stBound.pstate = .bound ∧ stBound.lastTs ≤ 4060 ∧ 4000 ≤ 4060 - stBound.lastTs := by
  decide
theorem witness_LastControlFrameWins :
    TickAccepted true 100 ([] ++ frameFC :: []) stBound ∧ stBound.pstate = .bound ∧ isControlFrame frameFC ∧
    ∀ g ∈ ([] : List Frame), ¬isControlFrame g :=
  ⟨accepted_one _ rfl (by decide), rfl, control_FC, fun _ h => absurd h List.not_mem_nil⟩
theorem witness_BoundDrainWithoutControlFrame :
    (TickAccepted true 9000 [frameFI] stBound ∧ stBound.pstate = .bound ∧ (∀ g ∈ [frameFI], ¬isControlFrame g) ∧
      ∀ g ∈ [frameFI], validate g = false) ∧
    TickAccepted true 100 [frameFB16] stBound ∧ (∀ g ∈ [frameFB16], ¬isControlFrame g) ∧
      ∃ g ∈ [frameFB16], isBindFrame g :=
  ⟨⟨accepted_one _ rfl (by decide), rfl, by unfold isControlFrame; decide, by decide⟩,
    accepted_one _ rfl (by decide), by unfold isControlFrame; decide, frameFB16, List.mem_singleton.mpr rfl, bind_FB16⟩
theorem witness_PassedOverFramesChangeNothing :
    validate frameFI = false ∧ State.reset.resetDone = true ∧ State.reset.pstate = .noBind ∧
    isControlFrame frameFA := ⟨by decide, rfl, rfl, control_FA⟩
theorem witness_BindFrameAction :
    State.reset.resetDone = true ∧ State.reset.lastTs ≤ 0 ∧ State.reset.pstate = .noBind ∧ isBindFrame frameFB16 :=
  ⟨rfl, by decide, rfl, bind_FB16⟩
theorem witness_WaitFrameAction :
    stWait.resetDone = true ∧ stWait.lastTs ≤ 50 ∧ stWait.pstate = .waitFirstSynchro ∧ validate frameFBX = true ∧
      validate frameFI = false := by
  decide
theorem witness_BoundFrameActions :
    stBound.resetDone = true ∧ stBound.pstate = .bound ∧ isBindFrame frameFB16 ∧ isControlFrame frameFC ∧
    stBound.lastTs ≤ 60 ∧ validate frameFI = false := ⟨rfl, rfl, bind_FB16, control_FC, by decide, by decide⟩
theorem witness_BoundDrainRunsFrameRows : TickAccepted true 60 [frameFC] stBound ∧ stBound.pstate = .bound :=
  ⟨accepted_one _ rfl (by decide), rfl⟩
theorem witness_InvalidFramesHaveNoEffect :
    TickAccepted true 100 [frameFI] stBound ∧ TickAccepted true 100 [] stBound ∧
    [frameFI].filter validate = [].filter validate :=
  ⟨accepted_one _ rfl (by decide), ⟨rfl, by decide, fun _ => rfl, rfl⟩, by decide⟩
theorem witness_IdleTicksAreIdempotent :
    (State.reset.pstate = .noBind ∧ 127 - State.reset.lastTs < 128) ∧ stWait.pstate = .waitFirstSynchro ∧
    (stBound.pstate = .bound ∧ 4059 - stBound.lastTs < 4000) ∧
    exec (.tick false 0 []) State.reset = .next (nbStay State.reset) ∧
    exec (.tick false 50 []) stWait = .next (wsIdle stWait) ∧
    exec (.tick false 60 []) stBound = .next (bdStay stBound) := ⟨by decide, rfl, by decide, rfl, rfl, rfl⟩
theorem witness_PendingTickNeverHopsOrReverts :
    exec (.tick true 500 []) State.reset = .next (nbDrain 500 [] State.reset) ∧ State.reset.pstate = .noBind ∧
    exec (.tick true 9000 []) stBound = .next (bdDrain 9000 [] stBound) ∧ stBound.pstate = .bound ∧
    ∀ f ∈ ([] : List Frame), validate f = false := ⟨rfl, rfl, rfl, rfl, fun _ h => absurd h List.not_mem_nil⟩
theorem witness_TickTransitionTable :
    exec (.tick true 50 [frameFB16]) State.reset = .next stWait := by
  show execTick _ _ _ _ = _
  rw [execTick_of_accepted (accepted_one _ rfl (by decide))]; rfl
/-- One step for each clause: an idle TICK, RESET, and a pending TICK of one control frame in BOUND. -/
theorem witness_OutTakesControlFramesOnly :
    step (stBound.withFetchWord 8 0x01) = .next (bdStay stBound) ∧
    step (stBound.withFetchWord 8 0x00) = .next { State.reset with lastTs := 60 } ∧
    stBound.pstate = .bound ∧ decode (.transaction 70 (0x11 :: batchBytes [frameFC])) = .ok (.tick true 70 [frameFC]) ∧
    step { stBound with requests := [.transaction 70 (0x11 :: batchBytes [frameFC])] } =
      .next (bdDrain 70 [frameFC] stBound) :=
  ⟨rfl, rfl, rfl, rfl, execTick_of_accepted (accepted_one (s := stBound) frameFC rfl (by decide))⟩
theorem witness_HopTableWrittenOnlyByBind :
    step (State.reset.withFetchWord 8 0x11) = .next (nbDrain 0 [] State.reset) := rfl
theorem witness_TestAccessWritesNoRegister :
    exec (.hopR3A 0x18) State.reset = .next (State.reset.unitResult (.table ⟨0x1a, 0x3a, 0x12, 0x32⟩)) := rfl
theorem witness_FrameOperandsAreTenBytes :
    ([] : List Byte).length ≠ 10 ∧ (frameFC.toBytes ++ [0]).length ≠ 10 ∧ frameFC.toBytes.length = 10 ∧
    refusalOf (step { State.reset with requests := [.transaction 0 (0x02 :: frameFC.toBytes ++ [0])] }) =
      some .badFrameLength := by decide
theorem witness_MirrorsAreNeverRead :
    exec (.tick false 128 []) State.reset = .next (nbHop 128 State.reset) := rfl
theorem witness_LastTsTakesTheTickTime :
    exec (.tick false 4060 []) stBound = .next (bdRevert 4060 stBound) := rfl
theorem witness_DrainClearsFlagOnce :
    exec (.tick false 4060 []) stBound = .next (bdRevert 4060 stBound) ∧
    (bdRevert 4060 stBound).commands = [.setAddress Config.bindAddress] ++ .setChannel 0x4b :: [] ∧
    (∀ d, Command.setChannel d ∉ ([] : List Command)) ∧
    (wsIdle stWait).commands = [] ∧ exec (.tick false 50 []) stWait = .next (wsIdle stWait) :=
  ⟨rfl, rfl, fun _ => List.not_mem_nil, rfl, rfl⟩
theorem witness_LinkInvariantHoldsAfterReset : exec (.reset 0) State.powerUp = .next State.reset := rfl
theorem witness_EveryStepKeepsLinkInvariant :
    Invariant State.reset ∧ step (State.reset.withFetchWord 8 0x01) = .next (nbStay State.reset) :=
  ⟨fun _ => ⟨by decide, fun _ => ⟨rfl, rfl⟩, (absurd · (by decide)), (absurd · (by decide)), rfl, rfl, rfl⟩, rfl⟩
theorem witness_EveryStepKeepsOutInRange :
    OutInRange State.reset ∧ step (State.reset.withFetchWord 8 0x01) = .next (nbStay State.reset) :=
  ⟨⟨fun _ h => (by cases h), fun _ h => (by cases h)⟩, rfl⟩
theorem witness_DecodeEncodeAgree :
    wellFormed (.frameBdControl 5 frameFC) = true ∧
    encode (.frameBdControl 5 frameFC) = some (.frame .bound 5 frameFC.toBytes) := by decide
theorem witness_TransactionsDecodeToHostOperations :
    decode (.transaction 9 [0x11, 0x00]) = .ok (.tick true 9 []) ∧ ([0x11, 0x00] : List Byte).headD 0 = 0x11 ∧
    decode (.transaction 9 [0x08, 0x20]) = .ok (.fold6 0x20) ∧ (0x08 : Byte).toNat ≤ 8 := ⟨rfl, rfl, rfl, by decide⟩
theorem witness_StepRunsDecodedInstruction :
    ({ State.reset with requests := [.transaction 0 [0x01, 0x00]] } : State).requests
      = .transaction 0 [0x01, 0x00] :: [] ∧
    decode (.transaction 0 [0x01, 0x00]) = .ok (.tick false 0 []) ∧
    decode (.transaction 0 [0x01]) = .error .missingOperand ∧
    decode (.transaction State.reset.lastTs (transactionOfWord 8 0x01)) = .ok (.tick false 0 []) ∧
    State.reset.requests = [] := ⟨rfl, rfl, rfl, rfl, rfl⟩

end Sys2Proof.Tests
end

section
/-! PROOFS. What a step does with the request it takes (spec/00_scope.md R12, spec/10_state.md R21). -/

namespace Sys2Proof.Machine

open Sys2Proof

theorem takeRequest_nil {s : State} (h : s.requests = []) : takeRequest s = none := by
  simp [takeRequest, h]

theorem takeRequest_cons {s : State} {r : Request} {rest : List Request} (h : s.requests = r :: rest) :
    takeRequest s = some (r, { s with requests := rest }) := by
  simp [takeRequest, h]

theorem step_of_no_request {s : State} (h : s.requests = []) : step s = .refused .hostIdle := by
  simp [step, takeRequest_nil h]

theorem step_of_decode_ok {s : State} {now : Nat} {bytes : List Byte} {rest : List Request} {i : Instr}
    (hs : s.requests = .transaction now bytes :: rest) (hi : decode (.transaction now bytes) = .ok i) :
    step s = exec i { s with requests := rest } := by
  simp [step, takeRequest_cons hs, hi]

theorem step_of_decode_error {s : State} {now : Nat} {bytes : List Byte} {rest : List Request} {r : Refusal}
    (hs : s.requests = .transaction now bytes :: rest) (hr : decode (.transaction now bytes) = .error r) :
    step s = .refused r := by
  simp [step, takeRequest_cons hs, hr]

/-- The request that withFetchWord places is the one the step takes away, so the instruction runs on `s` itself. -/
theorem step_withFetchWord {s : State} {nbits w : Nat} {i : Instr}
    (hi : decode (.transaction s.lastTs (transactionOfWord nbits w)) = .ok i) :
    step (s.withFetchWord nbits w) = exec i s :=
  step_of_decode_ok (s := s.withFetchWord nbits w) rfl hi

/-- Settles O58, from what a step does with each kind of oldest request. -/
theorem stepRunsDecodedInstruction : Obligations.StepRunsDecodedInstruction :=
  ⟨fun _ _ _ _ hs => ⟨fun _ hi => step_of_decode_ok hs hi, fun _ hr => step_of_decode_error hs hr⟩,
    fun _ _ _ _ hi => step_withFetchWord hi,
    fun _ hs => step_of_no_request hs⟩

end Sys2Proof.Machine
end

section
/-! PROOFS. When each guarded operation that the arms of exec share answers a next state, and which
(log entry 9). -/

namespace Sys2Proof.Machine

open Sys2Proof

theorem runSelected_next {c : TickCase} {pend : Bool} {now : Nat} {frames : List Frame} {s t : State}
    (h : runSelected c pend now frames s = .next t) : execTick pend now frames s = .next t := by
  rcases runSelected_eq c pend now frames s with heq | heq
  · rw [← heq, h]
  · rw [heq] at h; cases h

theorem runHopCase_next_iff {c : HopCase} {a : Byte} {s t : State} :
    runHopCase c a s = .next t ↔ hopCase a = c ∧ s.unitResult (.table (hopCaseTable c a)) = t := by
  unfold runHopCase
  split <;> simp_all

theorem runFrameRow_next_iff {row : FrameRow} {f : Frame} {act s t : State} :
    runFrameRow row f act s = .next t ↔
      s.resetDone = true ∧ frameRow s.pstate f = some row ∧ act = t := by
  unfold runFrameRow
  split
  · simp_all
  · split <;> simp_all

theorem runTimedFrameRow_next_iff {row : FrameRow} {now : Nat} {f : Frame} {act s t : State} :
    runTimedFrameRow row now f act s = .next t ↔
      s.lastTs ≤ now ∧ s.resetDone = true ∧ frameRow s.pstate f = some row ∧ act = t := by
  unfold runTimedFrameRow
  cases hc : clockRefusal now s with
  | none =>
    obtain ⟨-, htime⟩ := clockRefusal_eq_none.mp hc
    simp [runFrameRow_next_iff, htime]
  | some r =>
    have hbad : ¬(s.resetDone = true ∧ s.lastTs ≤ now) := fun hok => by
      rw [clockRefusal_eq_none.mpr hok] at hc; cases hc
    simp only [reduceCtorEq, false_iff]
    exact fun ⟨htime, hreset, _⟩ => hbad ⟨hreset, htime⟩

theorem execFrameInvalid_next_iff {f : Frame} {s t : State} :
    execFrameInvalid f s = .next t ↔ validate f = false ∧ s = t := by
  unfold execFrameInvalid
  split <;> simp_all

theorem runIndexStep_next_iff {act s t : State} :
    runIndexStep act s = .next t ↔ s.resetDone = true ∧ act = t := by
  unfold runIndexStep
  split <;> simp_all

end Sys2Proof.Machine
end

section
/-! PROOFS. The folds keep a control field in its range, and every instruction keeps the records of OUT in theirs
(spec/00_scope.md R7, spec/30_encoding.md R78). -/

namespace Sys2Proof.Machine

open Sys2Proof

/-! ### The folds (R106, R107) -/

theorem fold8Value_range (v : Byte) : -127 ≤ fold8Value v ∧ fold8Value v ≤ 127 := by
  have hv : v.toNat < 256 := v.isLt
  unfold fold8Value
  split <;> omega

theorem fold6Value_range (b : Byte) : -31 ≤ fold6Value b ∧ fold6Value b ≤ 31 := by
  have hv : (b &&& 0x3F).toNat ≤ 63 := by
    rw [BitVec.toNat_and]
    exact Nat.and_le_right
  simp only [fold6Value]
  split <;> omega

/-- FOLD8 stores its exact value: eight bits of two's complement hold it. -/
theorem fold8_toInt (v : Byte) : (fold8 v).toInt = fold8Value v := by
  obtain ⟨hlo, hhi⟩ := fold8Value_range v
  exact BitVec.toInt_ofInt_eq_self (by decide) (by omega) (by omega)

/-- FOLD6 stores its exact value: eight bits of two's complement hold it. -/
theorem fold6_toInt (b : Byte) : (fold6 b).toInt = fold6Value b := by
  obtain ⟨hlo, hhi⟩ := fold6Value_range b
  exact BitVec.toInt_ofInt_eq_self (by decide) (by omega) (by omega)

theorem fold8_toInt_range (v : Byte) : -127 ≤ (fold8 v).toInt ∧ (fold8 v).toInt ≤ 127 :=
  fold8_toInt v ▸ fold8Value_range v

theorem fold6_toInt_range (b : Byte) : -31 ≤ (fold6 b).toInt ∧ (fold6 b).toInt ≤ 31 :=
  fold6_toInt b ▸ fold6Value_range b

/-- DECODE folds every axis and every trim, so its record is in range for any frame, valid or not (R105, R110). -/
theorem decodeControls_inRange (f : Frame) : ControlsInRange (decodeControls f) where
  pitch := fold8_toInt_range f.f1
  yaw := fold8_toInt_range f.f2
  roll := fold8_toInt_range f.f3
  trimPitch := fold6_toInt_range f.f5
  trimYaw := fold6_toInt_range f.f6
  trimRoll := fold6_toInt_range f.f7

/-! ### The records of a state -/

theorem OutInRange.congr {s t : State} (hs : OutInRange s) (hout : t.out = s.out) (hvals : t.vals = s.vals) :
    OutInRange t := by
  unfold OutInRange
  rw [hout, hvals]
  exact hs

theorem outInRange_of_none {s : State} (hout : s.out = none) (hvals : s.vals = none) : OutInRange s := by
  simp [OutInRange, hout, hvals]

theorem OutInRange.clearWorking {s : State} (hs : OutInRange s) : OutInRange s.clearWorking :=
  ⟨hs.1, by simp⟩

/-- A decoded record may go to OUT. -/
theorem outInRange_of_out_decoded {s : State} {f : Frame} (hout : s.out = some (decodeControls f))
    (hvals : s.vals = none) : OutInRange s := by
  simp [OutInRange, hout, hvals, decodeControls_inRange]

/-- A decoded record may go to the working record (R188). -/
theorem OutInRange.bdControlFrame {s : State} (hs : OutInRange s) (now : Nat) (f : Frame) :
    OutInRange (bdControlFrame now f s) :=
  ⟨hs.1, by simp [Machine.bdControlFrame, decodeControls_inRange]⟩

/-! ### The drains: only a BOUND drain with a control frame writes OUT (R187, R189) -/

theorem OutInRange.nbDrain {s : State} (hs : OutInRange s) (now : Nat) (frames : List Frame) :
    OutInRange (nbDrain now frames s) := by
  rcases nbDrain_cases frames with hnone | ⟨pre, f, post, rfl, hpre, hf⟩
  · rw [nbDrain_no_bind now s hnone]
    exact hs.clearWorking.congr rfl rfl
  · rw [nbDrain_first_bind now post s hpre hf]
    exact hs.clearWorking.congr rfl rfl

theorem OutInRange.wsDrain {s : State} (hs : OutInRange s) (now : Nat) (frames : List Frame) :
    OutInRange (wsDrain now frames s) := by
  cases hv : frames.any validate with
  | false =>
    rw [wsDrain_no_valid now s hv]
    exact hs.clearWorking.congr rfl rfl
  | true =>
    rw [wsDrain_valid now s hv]
    exact hs.clearWorking.congr rfl rfl

theorem OutInRange.bdDrain {s : State} (hs : OutInRange s) (now : Nat) (frames : List Frame) :
    OutInRange (bdDrain now frames s) := by
  rcases bdDrain_cases frames with hnone | ⟨pre, f, post, rfl, hf, hpost⟩
  · cases hv : frames.any validate with
    | false =>
      rw [bdDrain_no_valid now s hnone hv]
      exact hs.clearWorking.congr rfl rfl
    | true =>
      rw [bdDrain_bind_only now s hnone hv]
      exact hs.clearWorking.congr rfl rfl
  · rw [bdDrain_last_control now pre s hf hpost]
    exact outInRange_of_out_decoded rfl rfl

/-! ### TICK, every instruction, every step -/

theorem execTick_outInRange {pend : Bool} {now : Nat} {frames : List Frame} {s t : State} (hs : OutInRange s)
    (h : execTick pend now frames s = .next t) : OutInRange t := by
  obtain ⟨-, hrun⟩ := execTick_next h
  rcases runTickCase_next hrun with ⟨-, -, -, rfl⟩ | ⟨-, -, -, rfl⟩ | ⟨-, -, rfl⟩ | ⟨-, -, rfl⟩ | ⟨-, -, rfl⟩ |
    ⟨-, -, -, rfl⟩ | ⟨-, -, -, rfl⟩ | ⟨-, -, rfl⟩
  · exact hs.congr rfl rfl
  · exact hs.congr rfl rfl
  · exact hs.nbDrain now frames
  · exact hs.congr rfl rfl
  · exact hs.wsDrain now frames
  · exact hs.congr rfl rfl
  · exact hs.congr rfl rfl
  · exact hs.bdDrain now frames

/-- Every instruction, also one that no host can send, keeps the records in range. -/
theorem exec_outInRange {i : Instr} {s t : State} (hs : OutInRange s) (h : exec i s = .next t) : OutInRange t := by
  cases i with
  | reset now =>
    cases h
    exact outInRange_of_none rfl rfl
  | tick pend now frames => exact execTick_outInRange hs h
  | checksum | validate | isBindMarker | decodeControls | deriveHopTable | fold8 | fold6 =>
    cases h
    exact hs.congr rfl rfl
  | reservedOpc9 | reservedOpcAB | reservedOpcCF | reservedBit5 | reservedBit6 | reservedBit7 | reservedPendNotTick =>
    cases h
  | tickNbStay | tickNbHop | tickNbDrain | tickWsIdle | tickWsDrain | tickBdStay | tickBdRevert | tickBdDrain
  | tickReservedPstate3 => exact execTick_outInRange hs (runSelected_next h)
  | hopR1Special6 | hopR1 | hopR2Special16 | hopR2 | hopR3A | hopR3B | hopFixed1E | hopFixed1F =>
    obtain ⟨-, rfl⟩ := runHopCase_next_iff.mp h
    exact hs.congr rfl rfl
  | frameInvalid f =>
    obtain ⟨-, rfl⟩ := execFrameInvalid_next_iff.mp h
    exact hs
  | frameNbOther | frameBdBind =>
    obtain ⟨-, -, rfl⟩ := runFrameRow_next_iff.mp h
    exact hs.congr rfl rfl
  | frameNbBind | frameWsValid =>
    obtain ⟨-, -, -, rfl⟩ := runTimedFrameRow_next_iff.mp h
    exact hs.congr rfl rfl
  | frameBdControl now f =>
    obtain ⟨-, -, -, rfl⟩ := runTimedFrameRow_next_iff.mp h
    exact hs.bdControlFrame now f
  | hopAdvance | bindChannelAdvance =>
    obtain ⟨-, rfl⟩ := runIndexStep_next_iff.mp h
    exact hs.congr rfl rfl

theorem step_outInRange {s t : State} (hs : OutInRange s) (h : step s = .next t) : OutInRange t := by
  rcases step_next h with ⟨rest, r, -, -, rfl⟩ | ⟨now, bytes, rest, i, -, -, hexec⟩
  · exact hs.congr rfl rfl
  · have hrest : OutInRange { s with requests := rest } := hs.congr rfl rfl
    exact exec_outInRange hrest hexec

/-- Settles O55: at reset no record stands, and what a step writes to a record is cleared or decoded. -/
theorem everyStepKeepsOutInRange : Obligations.EveryStepKeepsOutInRange :=
  ⟨outInRange_of_none rfl rfl, fun _ _ hs h => step_outInRange hs h⟩

end Sys2Proof.Machine
end

section
/-! PROOFS. What a TICK writes to the registers, said once: the PSTATE it is written in and the new values
(spec/43_state_machine.md R175 to R189). -/

namespace Sys2Proof.Machine

open Sys2Proof

/-! ### Equal registers -/

/-- Writing only the working state and the outputs leaves the registers. -/
theorem SameRegisters.of_outputs {s : State} {vs ds : Bool} {v : Option Controls} {r : OpResult}
    {cs : List Command} :
    SameRegisters s { s with validSeen := vs, decodedSeen := ds, vals := v, result := r, commands := cs } := by
  constructor <;> rfl

/-- A unit of the codec writes no register, and neither does a read of OUT (R100, R29). -/
theorem sameRegisters_unitResult (s : State) (r : OpResult) : SameRegisters s (s.unitResult r) :=
  .of_outputs

/-! ### The register writes of a TICK -/

/-- `TickWrites now s regs`: a TICK at the time `now` may turn the registers of `s` into those of `regs`. -/
inductive TickWrites (now : Nat) (s : State) : State → Prop
  /-- An idle case that stays, or a drain that finds no frame it acts on. -/
  | nothing : TickWrites now s s
  /-- The search hops to the next bind channel (R176). -/
  | searchHop (hp : s.pstate = .noBind) :
      TickWrites now s { s with
        bindIdx := s.bindIdx + 1
        progChan := bindChannels.get (s.bindIdx + 1)
        lastTs := now }
  /-- BIND(f) (R178). -/
  | bind (hp : s.pstate = .noBind) (f : Frame) :
      TickWrites now s { s with
        txAddr := f.address
        progAddr := f.address
        hopTable := deriveHopTable f.f4
        hopIdx := 0
        progChan := (deriveHopTable f.f4).c0
        lastTs := now
        pstate := .waitFirstSynchro }
  /-- The first valid frame after the bind, and the one hop advance of its drain (R181, R182). -/
  | synchro (hp : s.pstate = .waitFirstSynchro) :
      TickWrites now s { s with
        pstate := .bound
        lastTs := now
        hopIdx := s.hopIdx + 1
        progChan := s.hopTable.get (s.hopIdx + 1) }
  /-- The one hop advance of a BOUND drain. Only a control frame writes OUT and LAST_TS (R187, R188). -/
  | boundHop (hp : s.pstate = .bound) (ts : Nat) (hts : ts = s.lastTs ∨ ts = now) (out : Option Controls) :
      TickWrites now s { s with
        out := out
        lastTs := ts
        hopIdx := s.hopIdx + 1
        progChan := s.hopTable.get (s.hopIdx + 1) }
  /-- The revert to the search on signal loss (R186). -/
  | revert (hp : s.pstate = .bound) :
      TickWrites now s { s with
        progAddr := Config.bindAddress
        bindIdx := 0
        progChan := bindChannels.c0
        lastTs := now
        pstate := .noBind }

theorem nbDrain_writes {s : State} (hp : s.pstate = .noBind) (now : Nat) (frames : List Frame) :
    ∃ regs, TickWrites now s regs ∧ SameRegisters regs (nbDrain now frames s) := by
  rcases nbDrain_cases frames with hnone | ⟨pre, f, post, rfl, hpre, hf⟩
  · rw [nbDrain_no_bind now s hnone]
    exact ⟨_, .nothing, .of_outputs⟩
  · rw [nbDrain_first_bind now post s hpre hf]
    exact ⟨_, .bind hp f, .of_outputs⟩

theorem wsDrain_writes {s : State} (hp : s.pstate = .waitFirstSynchro) (now : Nat) (frames : List Frame) :
    ∃ regs, TickWrites now s regs ∧ SameRegisters regs (wsDrain now frames s) := by
  cases hv : frames.any validate with
  | false =>
    rw [wsDrain_no_valid now s hv]
    exact ⟨_, .nothing, .of_outputs⟩
  | true =>
    rw [wsDrain_valid now s hv]
    exact ⟨_, .synchro hp, .of_outputs⟩

theorem bdDrain_writes {s : State} (hp : s.pstate = .bound) (now : Nat) (frames : List Frame) :
    ∃ regs, TickWrites now s regs ∧ SameRegisters regs (bdDrain now frames s) := by
  rcases bdDrain_cases frames with hnone | ⟨pre, f, post, rfl, hf, hpost⟩
  · cases hv : frames.any validate with
    | false =>
      rw [bdDrain_no_valid now s hnone hv]
      exact ⟨_, .nothing, .of_outputs⟩
    | true =>
      rw [bdDrain_bind_only now s hnone hv]
      exact ⟨_, .boundHop hp s.lastTs (.inl rfl) s.out, .of_outputs⟩
  · rw [bdDrain_last_control now pre s hf hpost]
    exact ⟨_, .boundHop hp now (.inr rfl) (some (decodeControls f)), .of_outputs⟩

/-- Every register write of a TICK that answers a next state is one of those above. -/
theorem execTick_writes {pend : Bool} {now : Nat} {frames : List Frame} {s t : State}
    (h : execTick pend now frames s = .next t) : ∃ regs, TickWrites now s regs ∧ SameRegisters regs t := by
  obtain ⟨-, hrun⟩ := execTick_next h
  rcases runTickCase_next hrun with ⟨-, -, -, rfl⟩ | ⟨hp, -, -, rfl⟩ | ⟨hp, -, rfl⟩ | ⟨-, -, rfl⟩ | ⟨hp, -, rfl⟩ |
    ⟨-, -, -, rfl⟩ | ⟨hp, -, -, rfl⟩ | ⟨hp, -, rfl⟩
  · exact ⟨_, .nothing, .of_outputs⟩
  · exact ⟨_, .searchHop hp, .of_outputs⟩
  · exact nbDrain_writes hp now frames
  · exact ⟨_, .nothing, .of_outputs⟩
  · exact wsDrain_writes hp now frames
  · exact ⟨_, .nothing, .of_outputs⟩
  · exact ⟨_, .revert hp, .of_outputs⟩
  · exact bdDrain_writes hp now frames

/-! ### LAST_TS (R28, R37, R261) -/

theorem TickWrites.lastTs {now : Nat} {s regs : State} (h : TickWrites now s regs) :
    regs.lastTs = s.lastTs ∨ regs.lastTs = now := by
  cases h with
  | nothing => exact .inl rfl
  | boundHop _ _ hts => exact hts
  | searchHop | bind | synchro | revert => exact .inr rfl

/-- Settles O51: what a TICK writes to LAST_TS is its time, and R172 accepts no time before LAST_TS. -/
theorem lastTsTakesTheTickTime : Obligations.LastTsTakesTheTickTime := by
  intro pend now frames s t h
  obtain ⟨hacc, -⟩ := execTick_next h
  obtain ⟨regs, hwrites, hsame⟩ := execTick_writes h
  have htime : s.lastTs ≤ now := hacc.timeForward
  have hts : t.lastTs = s.lastTs ∨ t.lastTs = now := hsame.lastTs ▸ hwrites.lastTs
  exact ⟨hts, by omega, by omega⟩

end Sys2Proof.Machine
end

section
/-! PROOFS. What a step can do: read OUT, answer a test access, run RESET, or run a TICK (spec/30_encoding.md R71). -/

namespace Sys2Proof

open Sys2Proof.Machine

/-! ### What each kind of operand decodes to -/

theorem withNothing_eq_ok {i j : Instr} {operands : List Byte} (h : withNothing i operands = .ok j) :
    operands = [] ∧ j = i := by
  unfold withNothing at h
  split at h <;> simp_all

theorem withByte_eq_ok {mk : Byte → Instr} {operands : List Byte} {i : Instr} (h : withByte mk operands = .ok i) :
    ∃ b, i = mk b := by
  unfold withByte at h
  split at h <;> cases h
  exact ⟨_, rfl⟩

theorem withFrame_eq_ok {mk : Frame → Instr} {operands : List Byte} {i : Instr} (h : withFrame mk operands = .ok i) :
    ∃ f, i = mk f := by
  unfold withFrame at h
  split at h <;> cases h
  exact ⟨_, rfl⟩

theorem withBatch_eq_ok {mk : List Frame → Instr} {operands : List Byte} {i : Instr}
    (h : withBatch mk operands = .ok i) : ∃ frames, i = mk frames := by
  unfold withBatch at h
  split at h
  · cases h
  · split at h <;> cases h
    exact ⟨_, rfl⟩

/-- Only the command byte 0x00 is RESET's (R71). -/
theorem commandRow_reset {cmd : Byte} (h : commandRow cmd = .reset) : cmd = 0x00 := by
  revert cmd; decide

end Sys2Proof

namespace Sys2Proof.Machine

open Sys2Proof

/-- Where the instruction of a transaction answers a next state, it is RESET, sent as the byte 0x00 alone, a TICK, or
a test access, which answers the result of a unit. -/
theorem exec_transaction_next {now : Nat} {bytes : List Byte} {i : Instr} {s t : State}
    (hd : decodeTransaction now bytes = .ok i) (h : exec i s = .next t) :
    (bytes = [0x00] ∧ execReset now s = .next t) ∨
    (∃ pend frames, i = .tick pend now frames ∧ execTick pend now frames s = .next t) ∨
    (∃ r, t = s.unitResult r) := by
  unfold decodeTransaction at hd
  split at hd
  · cases hd
  · next cmd operands =>
    cases hrow : commandRow cmd <;> simp only [hrow] at hd
    case reset =>
      obtain ⟨rfl, rfl⟩ := withNothing_eq_ok hd
      exact .inl ⟨by rw [commandRow_reset hrow], h⟩
    case tick =>
      obtain ⟨frames, rfl⟩ := withBatch_eq_ok hd
      exact .inr (.inl ⟨_, frames, rfl, h⟩)
    case checksum | validate | isBindMarker | decodeControls =>
      obtain ⟨f, rfl⟩ := withFrame_eq_ok hd
      cases h
      exact .inr (.inr ⟨_, rfl⟩)
    case deriveHopTable | fold8 | fold6 =>
      obtain ⟨b, rfl⟩ := withByte_eq_ok hd
      cases h
      exact .inr (.inr ⟨_, rfl⟩)
    case opc9 | opcAB | opcCF | bit5 | bit6 | bit7 | pendNotTick =>
      cases hd
      cases h

/-- A step that answers a next state took a request, and then ran RESET or a TICK, or answered a result and left the
registers. -/
theorem step_next_cases {s t : State} (h : step s = .next t) :
    ∃ rest,
      (∃ now, s.requests = .transaction now [0x00] :: rest ∧ execReset now { s with requests := rest } = .next t) ∨
      (∃ pend now bytes frames, s.requests = .transaction now bytes :: rest ∧
        decodeTransaction now bytes = .ok (.tick pend now frames) ∧
        execTick pend now frames { s with requests := rest } = .next t) ∨
      (∃ r, t = ({ s with requests := rest } : State).unitResult r) := by
  rcases step_next h with ⟨rest, r, -, -, rfl⟩ | ⟨now, bytes, rest, i, hreq, hd, hexec⟩
  · exact ⟨rest, .inr (.inr ⟨_, rfl⟩)⟩
  · refine ⟨rest, ?_⟩
    rcases exec_transaction_next hd hexec with ⟨rfl, hreset⟩ | ⟨pend, frames, rfl, htick⟩ | hunit
    · exact .inl ⟨now, hreq, hreset⟩
    · exact .inr (.inl ⟨pend, now, bytes, frames, hreq, hd, htick⟩)
    · exact .inr (.inr hunit)

/-! ### Reads of OUT (R38, R226) -/

theorem step_of_readOut {s : State} {rest : List Request} (h : s.requests = .readOut :: rest) :
    step s = readOut { s with requests := rest } := by
  simp [step, takeRequest_cons h]

theorem readOut_of_none {s : State} (h : s.out = none) : readOut s = .fault .outUnwritten := by
  simp [readOut, h]

theorem readOut_of_some {s : State} {r : Controls} (h : s.out = some r) :
    readOut s = .next (s.unitResult (.record r)) := by
  simp [readOut, h]

/-- Settles O23, by whether OUT holds a record. -/
theorem outReadFaultsUntilWritten : Obligations.OutReadFaultsUntilWritten := by
  intro s rest hreq
  rw [step_of_readOut hreq]
  exact ⟨fun hout => readOut_of_none hout,
    fun r hout => ⟨_, readOut_of_some hout, sameRegisters_unitResult _ _, rfl, rfl⟩⟩

/-! ### HOP_TABLE and TX_ADDR (R26, R27, R150) -/

/-- Of all register writes of a TICK only BIND(f) touches HOP_TABLE and TX_ADDR. -/
theorem TickWrites.hopTable {now : Nat} {s regs : State} (h : TickWrites now s regs) :
    (regs.hopTable = s.hopTable ∧ regs.txAddr = s.txAddr) ∨
      (s.pstate = .noBind ∧ regs.pstate = .waitFirstSynchro ∧ regs.hopTable = deriveHopTable regs.txAddr.a0) := by
  cases h with
  | bind hp f => exact .inr ⟨hp, rfl, rfl⟩
  | nothing | searchHop | synchro | boundHop | revert => exact .inl ⟨rfl, rfl⟩

/-- Settles O48, by what a step can do. -/
theorem hopTableWrittenOnlyByBind : Obligations.HopTableWrittenOnlyByBind := by
  intro s t h
  obtain ⟨rest, ⟨now, hreq, -⟩ | ⟨pend, now, -, frames, -, -, htick⟩ | ⟨r, rfl⟩⟩ := step_next_cases h
  · exact .inr (.inl ⟨now, rest, hreq⟩)
  · obtain ⟨regs, hwrites, hsame⟩ := execTick_writes htick
    rw [hsame.hopTable, hsame.txAddr, hsame.pstate]
    exact hwrites.hopTable.imp_right .inr
  · exact .inl ⟨rfl, rfl⟩

end Sys2Proof.Machine
end

section
/-! PROOFS. The invariants of the link (spec/10_state.md R37), at reset and over every step. -/

namespace Sys2Proof.Machine

open Sys2Proof

/-- The working state of drains is cleared (R34; log entry 7). -/
def WorkingCleared (s : State) : Prop :=
  s.validSeen = false ∧ s.decodedSeen = false ∧ s.vals = none

theorem workingCleared_clearWorking (s : State) : WorkingCleared s.clearWorking :=
  ⟨rfl, rfl, rfl⟩

/-! ### The invariants, by PSTATE -/

theorem linkInvariant_of_search {s : State} (hp : s.pstate = .noBind) (htuned : tunedToSearch s)
    (hwork : WorkingCleared s) : LinkInvariant s where
  legalPstate := by simp [hp]
  search _ := htuned
  waiting := by simp [hp]
  bound := by simp [hp]
  working := hwork

theorem linkInvariant_of_hop {s : State} (hp : s.pstate = .waitFirstSynchro ∨ s.pstate = .bound)
    (htuned : tunedToHop s) (hwork : WorkingCleared s) : LinkInvariant s where
  legalPstate := by rcases hp with hp | hp <;> simp [hp]
  search := by rcases hp with hp | hp <;> simp [hp]
  waiting _ := htuned
  bound _ := htuned
  working := hwork

/-- But for the cleared working state, the invariants are about registers. -/
theorem LinkInvariant.congr {s t : State} (hs : LinkInvariant s) (hsame : SameRegisters s t)
    (hwork : WorkingCleared t) : LinkInvariant t where
  legalPstate := by rw [hsame.pstate]; exact hs.legalPstate
  search := by
    unfold tunedToSearch
    rw [hsame.pstate, hsame.progAddr, hsame.progChan, hsame.bindIdx]
    exact hs.search
  waiting := by
    unfold tunedToHop
    rw [hsame.pstate, hsame.hopTable, hsame.txAddr, hsame.progAddr, hsame.progChan, hsame.hopIdx]
    exact hs.waiting
  bound := by
    unfold tunedToHop
    rw [hsame.pstate, hsame.hopTable, hsame.txAddr, hsame.progAddr, hsame.progChan, hsame.hopIdx]
    exact hs.bound
  working := hwork

/-! ### RESET (R170) -/

theorem execReset_linkInvariant {now : Nat} {s t : State} (h : execReset now s = .next t) :
    t.resetDone = true ∧ LinkInvariant t := by
  cases h
  exact ⟨rfl, linkInvariant_of_search rfl ⟨rfl, rfl⟩ (workingCleared_clearWorking s)⟩

theorem linkInvariant_reset : LinkInvariant State.reset :=
  linkInvariant_of_search rfl ⟨rfl, rfl⟩ ⟨rfl, rfl, rfl⟩

/-- Settles O53: RESET leaves the search tuned to the bind address and the first bind channel. -/
theorem linkInvariantHoldsAfterReset : Obligations.LinkInvariantHoldsAfterReset :=
  ⟨fun _ => linkInvariant_reset, fun hreset => absurd hreset (by decide), fun _ _ _ h => execReset_linkInvariant h⟩

/-! ### TICK -/

/-- Every transition that moves the receiver retunes it: a search hop and a revert to the bind channel of the new
BIND_IDX, a bind and a hop advance to the hop channel of the new HOP_IDX. -/
theorem TickWrites.linkInvariant {now : Nat} {s regs : State} (h : TickWrites now s regs) (hs : LinkInvariant s) :
    LinkInvariant regs := by
  cases h with
  | nothing => exact hs
  | searchHop hp =>
    obtain ⟨haddr, -⟩ := hs.search hp
    exact linkInvariant_of_search hp ⟨haddr, rfl⟩ hs.working
  | bind hp f => exact linkInvariant_of_hop (.inl rfl) ⟨rfl, rfl, rfl⟩ hs.working
  | synchro hp =>
    obtain ⟨htable, haddr, -⟩ := hs.waiting hp
    exact linkInvariant_of_hop (.inr rfl) ⟨htable, haddr, rfl⟩ hs.working
  | boundHop hp ts hts out =>
    obtain ⟨htable, haddr, -⟩ := hs.bound hp
    exact linkInvariant_of_hop (.inr hp) ⟨htable, haddr, rfl⟩ hs.working
  | revert hp => exact linkInvariant_of_search rfl ⟨rfl, rfl⟩ hs.working

theorem nbDrain_workingCleared (now : Nat) (frames : List Frame) (s : State) :
    WorkingCleared (nbDrain now frames s) := by
  rcases nbDrain_cases frames with hnone | ⟨pre, f, post, rfl, hpre, hf⟩
  · rw [nbDrain_no_bind now s hnone]
    exact workingCleared_clearWorking s
  · rw [nbDrain_first_bind now post s hpre hf]
    exact workingCleared_clearWorking s

/-- An idle case leaves the working state, and a drain leaves it cleared. -/
theorem execTick_workingCleared {pend : Bool} {now : Nat} {frames : List Frame} {s t : State}
    (hs : WorkingCleared s) (h : execTick pend now frames s = .next t) : WorkingCleared t := by
  obtain ⟨-, hrun⟩ := execTick_next h
  rcases runTickCase_next hrun with ⟨-, -, -, rfl⟩ | ⟨-, -, -, rfl⟩ | ⟨-, -, rfl⟩ | ⟨-, -, rfl⟩ | ⟨-, -, rfl⟩ |
    ⟨-, -, -, rfl⟩ | ⟨-, -, -, rfl⟩ | ⟨-, -, rfl⟩
  · exact hs
  · exact hs
  · exact nbDrain_workingCleared now frames s
  · exact hs
  · exact workingCleared_clearWorking _
  · exact hs
  · exact hs
  · exact workingCleared_clearWorking _

theorem execTick_linkInvariant {pend : Bool} {now : Nat} {frames : List Frame} {s t : State}
    (hs : LinkInvariant s) (h : execTick pend now frames s = .next t) : LinkInvariant t := by
  obtain ⟨regs, hwrites, hsame⟩ := execTick_writes h
  exact (hwrites.linkInvariant hs).congr hsame (execTick_workingCleared hs.working h)

/-! ### Every step -/

/-- Taking a request off the list keeps the invariants, which do not speak of the requests. -/
theorem LinkInvariant.withRequests {s : State} (hs : LinkInvariant s) (rest : List Request) :
    LinkInvariant { s with requests := rest } :=
  ⟨hs.legalPstate, hs.search, hs.waiting, hs.bound, hs.working⟩

/-- Settles O54, by what a step can do: RESET establishes the invariants, an accepted TICK, for which RESET has run,
keeps them, and no other step writes a register. -/
theorem everyStepKeepsLinkInvariant : Obligations.EveryStepKeepsLinkInvariant := by
  intro s t hs h
  obtain ⟨rest, ⟨now, -, hreset⟩ | ⟨pend, now, -, frames, -, -, htick⟩ | ⟨r, rfl⟩⟩ := step_next_cases h
  · obtain ⟨-, hinv⟩ := execReset_linkInvariant hreset
    exact fun _ => hinv
  · obtain ⟨hacc, -⟩ := execTick_next htick
    have hlink : LinkInvariant s := hs hacc.resetRan
    exact fun _ => execTick_linkInvariant (hlink.withRequests rest) htick
  · intro hdone
    have hlink : LinkInvariant s := hs hdone
    exact (hlink.withRequests rest).congr (sameRegisters_unitResult _ r) hlink.working

end Sys2Proof.Machine
end

section
/-! PROOFS. No TICK reads the mirrors PROG_CHAN and PROG_ADDR (spec/10_state.md R30, R31). -/

namespace Sys2Proof.Machine

open Sys2Proof

/-- The state with other mirrors. -/
def State.withMirrors (s : State) (c : Byte) (a : Address) : State :=
  { s with progChan := c, progAddr := a }

/-- Two states differ at most in the mirrors: `u`, given the mirrors of `t`, is `t`. -/
def SameButMirrors (t u : State) : Prop :=
  u.withMirrors t.progChan t.progAddr = t

theorem nbDrain_withMirrors (now : Nat) (frames : List Frame) (s : State) (c : Byte) (a : Address) :
    SameButMirrors (nbDrain now frames s) (nbDrain now frames (s.withMirrors c a)) := by
  rcases nbDrain_cases frames with hnone | ⟨pre, f, post, rfl, hpre, hf⟩
  · rw [nbDrain_no_bind now _ hnone, nbDrain_no_bind now _ hnone]
    rfl
  · rw [nbDrain_first_bind now post _ hpre hf, nbDrain_first_bind now post _ hpre hf]
    rfl

theorem wsDrain_withMirrors (now : Nat) (frames : List Frame) (s : State) (c : Byte) (a : Address) :
    SameButMirrors (wsDrain now frames s) (wsDrain now frames (s.withMirrors c a)) := by
  cases hv : frames.any validate with
  | false =>
    rw [wsDrain_no_valid now _ hv, wsDrain_no_valid now _ hv]
    rfl
  | true =>
    rw [wsDrain_valid now _ hv, wsDrain_valid now _ hv]
    rfl

theorem bdDrain_withMirrors (now : Nat) (frames : List Frame) (s : State) (c : Byte) (a : Address) :
    SameButMirrors (bdDrain now frames s) (bdDrain now frames (s.withMirrors c a)) := by
  rcases bdDrain_cases frames with hnone | ⟨pre, f, post, rfl, hf, hpost⟩
  · cases hv : frames.any validate with
    | false =>
      rw [bdDrain_no_valid now _ hnone hv, bdDrain_no_valid now _ hnone hv]
      rfl
    | true =>
      rw [bdDrain_bind_only now _ hnone hv, bdDrain_bind_only now _ hnone hv]
      rfl
  · rw [bdDrain_last_control now pre _ hf hpost, bdDrain_last_control now pre _ hf hpost]
    rfl

/-- Each case answers alike whatever the mirrors are. -/
theorem runCase_withMirrors {k : TickCase} {now : Nat} {frames : List Frame} {s t : State} (c : Byte) (a : Address)
    (h : runCase k now frames s = .next t) :
    ∃ u, runCase k now frames (s.withMirrors c a) = .next u ∧ SameButMirrors t u := by
  cases k with
  | reservedPstate3 => cases h
  | nbDrain =>
    cases h
    exact ⟨_, rfl, nbDrain_withMirrors now frames s c a⟩
  | wsDrain =>
    cases h
    exact ⟨_, rfl, wsDrain_withMirrors now frames s c a⟩
  | bdDrain =>
    cases h
    exact ⟨_, rfl, bdDrain_withMirrors now frames s c a⟩
  | nbStay | nbHop | wsIdle | bdStay | bdRevert =>
    cases h
    exact ⟨_, rfl, rfl⟩

/-- R172's conditions do not speak of the mirrors. -/
theorem TickAccepted.withMirrors {pend : Bool} {now : Nat} {frames : List Frame} {s : State}
    (h : TickAccepted pend now frames s) (c : Byte) (a : Address) :
    TickAccepted pend now frames (s.withMirrors c a) :=
  ⟨h.resetRan, h.timeForward, h.pendIfFrames, h.fitsQueue⟩

/-- Settles O50: a TICK is accepted, picks its case and runs it without the mirrors. -/
theorem mirrorsAreNeverRead : Obligations.MirrorsAreNeverRead := by
  intro pend now frames s t c a h
  obtain ⟨hacc, hrun⟩ := execTick_next h
  obtain ⟨u, hu, hsame⟩ := runCase_withMirrors c a hrun
  have htick : execTick pend now frames (s.withMirrors c a) = .next u :=
    (execTick_of_accepted (hacc.withMirrors c a)).trans hu
  exact ⟨u, htick, hsame⟩

end Sys2Proof.Machine
end

section
/-! PROOFS. The one-frame operand of a test access is exactly 10 bytes (spec/20_memory.md R55, spec/30_encoding.md
R72, R73, R82). -/

namespace Sys2Proof

open Sys2Proof.Machine

/-- Ten bytes are the bytes of a frame (R73). -/
theorem exists_frame_of_length {bytes : List Byte} (h : bytes.length = 10) : ∃ f : Frame, f.toBytes = bytes :=
  match bytes, h with
  | [b0, b1, b2, b3, b4, b5, b6, b7, b8, b9], _ => ⟨⟨b0, b1, b2, b3, b4, b5, b6, b7, b8, b9⟩, rfl⟩

/-- What reads as one frame is the ten bytes of that frame. -/
theorem readFrames_one_eq_some {bytes : List Byte} {f : Frame} (h : readFrames 1 bytes = some [f]) :
    bytes = f.toBytes := by
  obtain ⟨-, hbytes⟩ := readFrames_eq_some h
  simpa [writeFrames] using hbytes

theorem withFrame_toBytes (mk : Frame → Instr) (f : Frame) : withFrame mk f.toBytes = .ok (mk f) := by
  simp [withFrame]

theorem withFrame_of_length_ne (mk : Frame → Instr) {operands : List Byte} (h : operands.length ≠ 10) :
    withFrame mk operands = .error .badFrameLength := by
  unfold withFrame
  split
  · next f hread =>
    have hten : operands.length = 10 := congrArg List.length (readFrames_one_eq_some hread)
    exact absurd hten h
  · rfl

/-- Settles O60: each of the four command bytes decodes its operands as one frame, which is read from ten bytes only. -/
theorem frameOperandsAreTenBytes : Obligations.FrameOperandsAreTenBytes := by
  intro row hrow operands now rest s hs
  have hdecode : decode (.transaction now (row.1 :: operands)) = withFrame row.2 operands := by
    simp only [List.mem_cons, List.not_mem_nil, or_false] at hrow
    rcases hrow with rfl | rfl | rfl | rfl <;> rfl
  constructor
  · intro hlen
    exact step_of_decode_error hs (hdecode.trans (withFrame_of_length_ne row.2 hlen))
  · intro hlen
    obtain ⟨f, rfl⟩ := exists_frame_of_length hlen
    have hok := hdecode.trans (withFrame_toBytes row.2 f)
    exact ⟨f, rfl, hok, step_of_decode_ok hs hok⟩

end Sys2Proof
end

section
/-! PROOFS. The command bytes, row by row of the opcode table (spec/30_encoding.md R71, R82): the reserved rows with
their instructions and refusals, and the one byte of each operation. -/

namespace Sys2Proof

open Sys2Proof.Machine

/-! ### Reserved rows -/

/-- The reserved rows of the command byte, each with its instruction and its refusal (R82). -/
inductive ReservedRow : CommandRow → (Byte → Instr) → Refusal → Prop
  | opc9 : ReservedRow .opc9 .reservedOpc9 .reservedOpcode
  | opcAB : ReservedRow .opcAB .reservedOpcAB .reservedOpcode
  | opcCF : ReservedRow .opcCF .reservedOpcCF .reservedOpcode
  | bit5 : ReservedRow .bit5 .reservedBit5 .reservedBits
  | bit6 : ReservedRow .bit6 .reservedBit6 .reservedBits
  | bit7 : ReservedRow .bit7 .reservedBit7 .reservedBits
  | pendNotTick : ReservedRow .pendNotTick .reservedPendNotTick .pendNotTick

namespace ReservedRow

variable {row : CommandRow} {mk : Byte → Instr} {r : Refusal} {cmd : Byte}

theorem exec_eq (h : ReservedRow row mk r) (cmd : Byte) (s : State) : exec (mk cmd) s = .refused r := by
  cases h <;> rfl

/-- A reserved row is chosen by exactly the command bytes that are well-formed operands of its instruction. -/
theorem commandRow_eq_iff (h : ReservedRow row mk r) : commandRow cmd = row ↔ wellFormed (mk cmd) = true := by
  cases h <;> revert cmd <;> decide

/-- The bytes after a reserved command byte are not looked at (log entry 12). -/
theorem decodeTransaction_eq (h : ReservedRow row mk r) (hrow : commandRow cmd = row) (now : Nat)
    (operands : List Byte) : decodeTransaction now (cmd :: operands) = .ok (mk cmd) := by
  cases h <;> simp only [decodeTransaction, hrow]

theorem isHostOperation_eq (h : ReservedRow row mk r) (cmd : Byte) : isHostOperation (mk cmd) = true := by
  cases h <;> rfl

/-- The command bytes of the operations are in no reserved row (R71). -/
theorem not_operation_byte (h : ReservedRow row mk r) (hrow : commandRow cmd = row) :
    ¬(cmd.toNat ≤ 8 ∨ cmd = 0x11) := by
  cases h <;> revert cmd <;> decide

theorem step_eq (h : ReservedRow row mk r) (hrow : commandRow cmd = row) {s : State} {now : Nat}
    {operands : List Byte} {rest : List Request} (hs : s.requests = .transaction now (cmd :: operands) :: rest) :
    step s = .refused r :=
  (step_of_decode_ok hs (h.decodeTransaction_eq hrow now operands)).trans (h.exec_eq cmd _)

end ReservedRow

/-- Settles O21, row by row. -/
theorem reservedRowsAreRefused : Obligations.ReservedRowsAreRefused := fun cmd s =>
  ⟨ReservedRow.opc9.exec_eq cmd s, ReservedRow.opcAB.exec_eq cmd s, ReservedRow.opcCF.exec_eq cmd s,
    ReservedRow.bit5.exec_eq cmd s, ReservedRow.bit6.exec_eq cmd s, ReservedRow.bit7.exec_eq cmd s,
    ReservedRow.pendNotTick.exec_eq cmd s⟩

/-! ### The row of a byte by its fields OPC, PEND and bits 7:5 -/

theorem commandRow_of_reserved_opc {cmd : Byte} (h : 9 ≤ cmd.toNat % 16) :
    commandRow cmd = .opc9 ∨ commandRow cmd = .opcAB ∨ commandRow cmd = .opcCF := by
  revert cmd; decide

theorem commandRow_of_reserved_bits {cmd : Byte} (hopc : cmd.toNat % 16 < 9) (h : 32 ≤ cmd.toNat) :
    commandRow cmd = .bit5 ∨ commandRow cmd = .bit6 ∨ commandRow cmd = .bit7 := by
  revert cmd; decide

theorem commandRow_of_pend_not_tick {cmd : Byte} (hopc : cmd.toNat % 16 < 9) (htick : cmd.toNat % 16 ≠ 1)
    (hbits : cmd.toNat < 32) (hpend : 16 ≤ cmd.toNat) : commandRow cmd = .pendNotTick := by
  revert cmd; decide

/-- Settles O22: the fields of the command byte name its reserved row, and the row its refusal. -/
theorem reservedCommandBytesAreRefused : Obligations.ReservedCommandBytesAreRefused := by
  intro cmd operands now rest s hs
  refine ⟨fun hopc => ?_, fun hopc hbits => ?_, fun hopc htick hbits hpend => ?_⟩
  · rcases commandRow_of_reserved_opc hopc with hrow | hrow | hrow
    · exact ReservedRow.opc9.step_eq hrow hs
    · exact ReservedRow.opcAB.step_eq hrow hs
    · exact ReservedRow.opcCF.step_eq hrow hs
  · rcases commandRow_of_reserved_bits hopc hbits with hrow | hrow | hrow
    · exact ReservedRow.bit5.step_eq hrow hs
    · exact ReservedRow.bit6.step_eq hrow hs
    · exact ReservedRow.bit7.step_eq hrow hs
  · exact ReservedRow.pendNotTick.step_eq (commandRow_of_pend_not_tick hopc htick hbits hpend) hs

/-! ### Rows of the operations -/

/-- The one command byte of a row; none for TICK, which has two, and for the reserved rows (R71). -/
def CommandRow.soleByte (row : CommandRow) : Option Byte :=
  match row with
  | .reset => some 0x00
  | .checksum => some 0x02
  | .validate => some 0x03
  | .isBindMarker => some 0x04
  | .decodeControls => some 0x05
  | .deriveHopTable => some 0x06
  | .fold8 => some 0x07
  | .fold6 => some 0x08
  | .tick | .opc9 | .opcAB | .opcCF | .bit5 | .bit6 | .bit7 | .pendNotTick => none

theorem soleByte_commandRow (cmd : Byte) :
    (commandRow cmd).soleByte = none ∨ (commandRow cmd).soleByte = some cmd := by
  revert cmd; decide

theorem eq_soleByte {cmd b : Byte} {row : CommandRow} (hrow : commandRow cmd = row) (hb : row.soleByte = some b) :
    cmd = b := by
  have hcmd := soleByte_commandRow cmd
  rw [hrow, hb] at hcmd
  simpa [eq_comm] using hcmd

theorem eq_tickByte_of_commandRow {cmd : Byte} (hrow : commandRow cmd = .tick) : cmd = tickByte (pendBit cmd) := by
  revert cmd; decide

theorem pendBit_tickByte (pend : Bool) : pendBit (tickByte pend) = pend := by
  cases pend <;> rfl

end Sys2Proof
end

section
/-! PROOFS. The transactions that decode, and to which instruction (spec/30_encoding.md R71, R72, R83). -/

namespace Sys2Proof

open Sys2Proof.Machine

/-! ### The bytes of each kind of operand -/

theorem withByte_eq_ok_iff {mk : Byte → Instr} {operands : List Byte} {i : Instr} :
    withByte mk operands = .ok i ↔ ∃ b, operands = [b] ∧ i = mk b := by
  match operands with
  | [] => simp [withByte]
  | [b] => simp [withByte, eq_comm]
  | _ :: _ :: _ => simp [withByte]

theorem withFrame_eq_ok_iff {mk : Frame → Instr} {operands : List Byte} {i : Instr} :
    withFrame mk operands = .ok i ↔ ∃ f, operands = f.toBytes ∧ i = mk f := by
  constructor
  · intro h
    unfold withFrame at h
    split at h
    · next f hread =>
      cases h
      exact ⟨f, readFrames_one_eq_some hread, rfl⟩
    · cases h
  · rintro ⟨f, rfl, rfl⟩
    exact withFrame_toBytes mk f

/-- An NFR byte holds the count of a batch that fits it (R72). -/
theorem toNat_nfr {frames : List Frame} (h : frames.length < 256) :
    (BitVec.ofNat 8 frames.length).toNat = frames.length :=
  BitVec.toNat_ofNat _ _ ▸ Nat.mod_eq_of_lt h

theorem withBatch_batchBytes (mk : List Frame → Instr) {frames : List Frame} (h : frames.length < 256) :
    withBatch mk (batchBytes frames) = .ok (mk frames) := by
  simp only [withBatch, batchBytes, toNat_nfr h, readFrames_writeFrames]

theorem withBatch_eq_ok_iff {mk : List Frame → Instr} {operands : List Byte} {i : Instr} :
    withBatch mk operands = .ok i ↔
      ∃ frames, frames.length < 256 ∧ operands = batchBytes frames ∧ i = mk frames := by
  constructor
  · intro h
    unfold withBatch at h
    split at h
    · cases h
    · next nfr bytes =>
      split at h
      · next frames hread =>
        cases h
        obtain ⟨hlen, rfl⟩ := readFrames_eq_some hread
        have hnfr : BitVec.ofNat 8 frames.length = nfr := by rw [hlen, BitVec.ofNat_toNat, BitVec.setWidth_eq]
        exact ⟨frames, hlen ▸ nfr.isLt, by rw [batchBytes, hnfr], rfl⟩
      · cases h
  · rintro ⟨frames, hlen, rfl, rfl⟩
    exact withBatch_batchBytes mk hlen

/-! ### Transactions -/

/-- `HostWord now bytes i`: the transaction of these bytes, at the time `now`, is one of the instruction `i`. -/
inductive HostWord (now : Nat) : List Byte → Instr → Prop
  | reset : HostWord now [0x00] (.reset now)
  | tick (pend : Bool) (frames : List Frame) (hlen : frames.length < 256) :
      HostWord now (tickByte pend :: batchBytes frames) (.tick pend now frames)
  | checksum (f : Frame) : HostWord now (0x02 :: f.toBytes) (.checksum f)
  | validate (f : Frame) : HostWord now (0x03 :: f.toBytes) (.validate f)
  | isBindMarker (f : Frame) : HostWord now (0x04 :: f.toBytes) (.isBindMarker f)
  | decodeControls (f : Frame) : HostWord now (0x05 :: f.toBytes) (.decodeControls f)
  | deriveHopTable (a : Byte) : HostWord now [0x06, a] (.deriveHopTable a)
  | fold8 (v : Byte) : HostWord now [0x07, v] (.fold8 v)
  | fold6 (v : Byte) : HostWord now [0x08, v] (.fold6 v)
  | reserved {row : CommandRow} {mk : Byte → Instr} {r : Refusal} (hres : ReservedRow row mk r) {cmd : Byte}
      (hrow : commandRow cmd = row) (operands : List Byte) : HostWord now (cmd :: operands) (mk cmd)

theorem HostWord.decode_eq {now : Nat} {bytes : List Byte} {i : Instr} (h : HostWord now bytes i) :
    decode (.transaction now bytes) = .ok i := by
  cases h with
  | tick pend frames hlen =>
    have hdecode : decode (.transaction now (tickByte pend :: batchBytes frames)) =
        withBatch (.tick (pendBit (tickByte pend)) now) (batchBytes frames) := by
      cases pend <;> rfl
    rw [hdecode, pendBit_tickByte]
    exact withBatch_batchBytes _ hlen
  | reserved hres hrow operands => exact hres.decodeTransaction_eq hrow now operands
  | reset | checksum | validate | isBindMarker | decodeControls | deriveHopTable | fold8 | fold6 => rfl

/-- Nothing else decodes. -/
theorem hostWord_of_decode {now : Nat} {bytes : List Byte} {i : Instr}
    (h : decode (.transaction now bytes) = .ok i) : HostWord now bytes i := by
  simp only [decode] at h
  unfold decodeTransaction at h
  split at h
  · cases h
  · next cmd operands =>
    cases hrow : commandRow cmd <;> simp only [hrow] at h
    case reset =>
      obtain ⟨rfl, rfl⟩ := withNothing_eq_ok h
      obtain rfl := eq_soleByte hrow rfl
      exact .reset
    case tick =>
      obtain ⟨frames, hlen, rfl, rfl⟩ := withBatch_eq_ok_iff.mp h
      rw [eq_tickByte_of_commandRow hrow, pendBit_tickByte]
      exact .tick _ frames hlen
    case checksum | validate | isBindMarker | decodeControls =>
      obtain ⟨f, rfl, rfl⟩ := withFrame_eq_ok_iff.mp h
      obtain rfl := eq_soleByte hrow rfl
      constructor
    case deriveHopTable | fold8 | fold6 =>
      obtain ⟨b, rfl, rfl⟩ := withByte_eq_ok_iff.mp h
      obtain rfl := eq_soleByte hrow rfl
      constructor
    case opc9 => cases h; exact .reserved .opc9 hrow operands
    case opcAB => cases h; exact .reserved .opcAB hrow operands
    case opcCF => cases h; exact .reserved .opcCF hrow operands
    case bit5 => cases h; exact .reserved .bit5 hrow operands
    case bit6 => cases h; exact .reserved .bit6 hrow operands
    case bit7 => cases h; exact .reserved .bit7 hrow operands
    case pendNotTick => cases h; exact .reserved .pendNotTick hrow operands

/-- Settles O57, for each form of a transaction that decodes. -/
theorem transactionsDecodeToHostOperations : Obligations.TransactionsDecodeToHostOperations := by
  intro now bytes i h
  cases hostWord_of_decode h with
  | reset => exact ⟨rfl, rfl, fun _ => ⟨rfl, now, rfl⟩⟩
  | tick pend frames hlen =>
    have hwf : wellFormed (.tick pend now frames) = true := decide_eq_true hlen
    exact ⟨rfl, hwf, fun _ => ⟨Laws.EncodingLength.tick pend now frames hwf _ _ rfl, now, rfl⟩⟩
  | checksum | validate | isBindMarker | decodeControls | deriveHopTable | fold8 | fold6 =>
    exact ⟨rfl, rfl, fun _ => ⟨rfl, 0, rfl⟩⟩
  | reserved hres hrow operands =>
    exact ⟨hres.isHostOperation_eq _, hres.commandRow_eq_iff.mp hrow,
      fun hop => absurd hop (hres.not_operation_byte hrow)⟩

/-- Settles O59: each word is written out, so the decoder computes its instruction. -/
theorem writtenWordsDecode : Obligations.WrittenWordsDecode :=
  ⟨rfl, rfl, rfl, rfl, rfl⟩

end Sys2Proof
end

section
/-! PROOFS. The cases of TICK (spec/30_encoding.md R77): the row of each case, what it runs, and the selector word it is
decoded from. -/

namespace Sys2Proof

open Sys2Proof.Machine

/-- The row of each TICK case, with the PEND and the frames of the TICKs that can select it (R172, R173). -/
inductive CaseRow (now : Nat) : TickCase → Bool → List Frame → Instr → Prop
  | nbStay : CaseRow now .nbStay false [] (.tickNbStay now)
  | nbHop : CaseRow now .nbHop false [] (.tickNbHop now)
  | nbDrain (frames : List Frame) : CaseRow now .nbDrain true frames (.tickNbDrain now frames)
  | wsIdle : CaseRow now .wsIdle false [] (.tickWsIdle now)
  | wsDrain (frames : List Frame) : CaseRow now .wsDrain true frames (.tickWsDrain now frames)
  | bdStay : CaseRow now .bdStay false [] (.tickBdStay now)
  | bdRevert : CaseRow now .bdRevert false [] (.tickBdRevert now)
  | bdDrain (frames : List Frame) : CaseRow now .bdDrain true frames (.tickBdDrain now frames)
  | reservedPstate3 (pend : Bool) (frames : List Frame) :
      CaseRow now .reservedPstate3 pend frames (.tickReservedPstate3 pend now frames)

namespace CaseRow

variable {now : Nat} {c : TickCase} {pend : Bool} {frames : List Frame} {i : Instr}

theorem exec_eq (h : CaseRow now c pend frames i) (s : State) : exec i s = runSelected c pend now frames s := by
  cases h <;> rfl

/-- The model's choice (log entry 9). -/
theorem exec_eq_tick_or_refused (h : CaseRow now c pend frames i) (s : State) :
    exec i s = exec (.tick pend now frames) s ∨ exec i s = .refused .notSelected := by
  rw [h.exec_eq]
  exact runSelected_eq c pend now frames s

theorem exec_tick_eq (h : CaseRow now c pend frames i) {s : State} (hacc : TickAccepted pend now frames s)
    (hc : tickCase pend now s = c) : exec (.tick pend now frames) s = exec i s := by
  rw [h.exec_eq, runSelected_of_accepted hacc hc, ← hc]
  exact execTick_of_accepted hacc

theorem isHostOperation_eq (h : CaseRow now c pend frames i) : isHostOperation i = false := by
  cases h <;> rfl

theorem decodeSelector_eq (h : CaseRow now c pend frames i) {p : PState} {elapsed : Nat}
    (hc : selectorCase (selectorWord p pend) elapsed = c) :
    decodeSelector (selectorWord p pend) elapsed now frames = .ok i := by
  cases h with
  | reservedPstate3 =>
    have hbit : (selectorWord p pend).getLsbD 0 = pend := by cases p <;> cases pend <;> rfl
    simp only [decodeSelector, hc, hbit]
  | nbStay | nbHop | wsIdle | bdStay | bdRevert => simp only [decodeSelector, hc, withoutFrames]
  | nbDrain | wsDrain | bdDrain => simp only [decodeSelector, hc]

end CaseRow

/-- The case of an accepted TICK has a row with the PEND and the frames of that TICK: an idle TICK has no frames. -/
theorem exists_caseRow {pend : Bool} {now : Nat} {frames : List Frame} {s : State}
    (hacc : TickAccepted pend now frames s) : ∃ i, CaseRow now (tickCase pend now s) pend frames i := by
  cases pend with
  | false =>
    obtain rfl : frames = [] := hacc.pendIfFrames rfl
    cases hp : s.pstate with
    | noBind =>
      rw [tickCase_noBind_idle hp]
      split
      · exact ⟨_, .nbHop⟩
      · exact ⟨_, .nbStay⟩
    | waitFirstSynchro => exact tickCase_wait_idle hp ▸ ⟨_, .wsIdle⟩
    | bound =>
      rw [tickCase_bound_idle hp]
      split
      · exact ⟨_, .bdRevert⟩
      · exact ⟨_, .bdStay⟩
    | reserved => exact tickCase_reserved hp ▸ ⟨_, .reservedPstate3 false []⟩
  | true =>
    cases hp : s.pstate with
    | noBind => exact tickCase_noBind_pending hp ▸ ⟨_, .nbDrain frames⟩
    | waitFirstSynchro => exact tickCase_wait_pending hp ▸ ⟨_, .wsDrain frames⟩
    | bound => exact tickCase_bound_pending hp ▸ ⟨_, .bdDrain frames⟩
    | reserved => exact tickCase_reserved hp ▸ ⟨_, .reservedPstate3 true frames⟩

/-- Settles O25: the row of the TICK's case is decoded from the selector word and answers what the TICK answers. -/
theorem tickRunsItsSelectorWord : Obligations.TickRunsItsSelectorWord := by
  intro pend now frames s hacc
  obtain ⟨i, hrow⟩ := exists_caseRow hacc
  exact ⟨i, hrow.decodeSelector_eq (p := s.pstate) rfl, hrow.isHostOperation_eq, hrow.exec_tick_eq hacc rfl⟩

/-- Settles O26, row by row. -/
theorem tickCasesDoNoMoreThanTick : Obligations.TickCasesDoNoMoreThanTick := by
  intro pend now frames s
  refine ⟨?_, ?_, (CaseRow.reservedPstate3 pend frames).exec_eq_tick_or_refused s⟩
  · simp only [List.forall_mem_cons]
    exact ⟨CaseRow.nbStay.exec_eq_tick_or_refused s, CaseRow.nbHop.exec_eq_tick_or_refused s,
      CaseRow.wsIdle.exec_eq_tick_or_refused s, CaseRow.bdStay.exec_eq_tick_or_refused s,
      CaseRow.bdRevert.exec_eq_tick_or_refused s, List.forall_mem_nil _⟩
  · simp only [List.forall_mem_cons]
    exact ⟨(CaseRow.nbDrain frames).exec_eq_tick_or_refused s, (CaseRow.wsDrain frames).exec_eq_tick_or_refused s,
      (CaseRow.bdDrain frames).exec_eq_tick_or_refused s, List.forall_mem_nil _⟩

end Sys2Proof
end

section
/-! PROOFS. The cases of DERIVE_HOP_TABLE (spec/30_encoding.md R76): the row of each case and the address bytes that
select it; and what test access leaves unchanged (R100, R140). -/

namespace Sys2Proof

open Sys2Proof.Machine

/-- The row of a case of DERIVE_HOP_TABLE. -/
def HopCase.instr (c : HopCase) (a : Byte) : Instr :=
  match c with
  | .r1Special6 => .hopR1Special6 a
  | .r1 => .hopR1 a
  | .r2Special16 => .hopR2Special16 a
  | .r2 => .hopR2 a
  | .r3A => .hopR3A a
  | .r3B => .hopR3B a
  | .fixed1E => .hopFixed1E a
  | .fixed1F => .hopFixed1F a

theorem decode_seed_eq (a : Byte) : decode (.seed a) = .ok ((hopCase a).instr a) := rfl

theorem exec_hopCase_instr (c : HopCase) (a : Byte) (s : State) : exec (c.instr a) s = runHopCase c a s := by
  cases c <;> rfl

theorem isHostOperation_hopCase_instr (c : HopCase) (a : Byte) : isHostOperation (c.instr a) = false := by
  cases c <;> rfl

/-- A case is selected by exactly the address bytes that are well-formed operands of its row. -/
theorem hopCase_eq_iff {c : HopCase} {a : Byte} : hopCase a = c ↔ wellFormed (c.instr a) = true := by
  cases c <;> revert a <;> decide

theorem exec_deriveHopTable_eq (a : Byte) (s : State) : exec (.deriveHopTable a) s = exec ((hopCase a).instr a) s := by
  rw [exec_hopCase_instr, runHopCase, if_pos rfl]
  rfl

/-- Settles O14: the row is that of the selected case. -/
theorem deriveHopTableRunsItsCase : Obligations.DeriveHopTableRunsItsCase := fun a s =>
  ⟨(hopCase a).instr a, decode_seed_eq a, (hopCase_eq_iff (c := hopCase a)).mp rfl, isHostOperation_hopCase_instr _ a,
    exec_deriveHopTable_eq a s⟩

/-- Settles O49: a test access answers the result of a unit, and so does a hop case that is selected. -/
theorem testAccessWritesNoRegister : Obligations.TestAccessWritesNoRegister := by
  refine ⟨fun f b s i hi => ?_, fun b s t i hi h => ?_⟩
  · have hunit : ∃ r, exec i s = .next (s.unitResult r) := by
      simp only [List.mem_cons, List.not_mem_nil, or_false] at hi
      rcases hi with rfl | rfl | rfl | rfl | rfl | rfl | rfl <;> exact ⟨_, rfl⟩
    obtain ⟨r, hr⟩ := hunit
    exact ⟨_, hr, sameRegisters_unitResult s r, unitResult_commands s r⟩
  · have hcase : ∃ c : HopCase, i = c.instr b := by
      simp only [List.mem_cons, List.not_mem_nil, or_false] at hi
      rcases hi with hi | hi | hi | hi | hi | hi | hi | hi
      exacts [⟨.r1Special6, hi⟩, ⟨.r1, hi⟩, ⟨.r2Special16, hi⟩, ⟨.r2, hi⟩, ⟨.r3A, hi⟩, ⟨.r3B, hi⟩, ⟨.fixed1E, hi⟩,
        ⟨.fixed1F, hi⟩]
    obtain ⟨c, rfl⟩ := hcase
    obtain ⟨-, rfl⟩ := runHopCase_next_iff.mp (exec_hopCase_instr c b s ▸ h)
    exact ⟨sameRegisters_unitResult s _, unitResult_commands s _⟩

end Sys2Proof
end

section
/-! PROOFS. Decoding the word of a well-formed instruction gives it back (spec/30_encoding.md R70 to R77). -/

namespace Sys2Proof

open Sys2Proof.Machine

/-! ### Frame rows (R74) -/

/-- The instruction of a frame row. -/
def FrameRow.instr (row : FrameRow) (now : Nat) (f : Frame) : Instr :=
  match row with
  | .invalid => .frameInvalid f
  | .nbBind => .frameNbBind now f
  | .nbOther => .frameNbOther f
  | .wsValid => .frameWsValid now f
  | .bdBind => .frameBdBind f
  | .bdControl => .frameBdControl now f

/-- The PSTATE the encoder writes beside a frame; FRAME.INVALID is selected in every PSTATE. -/
def FrameRow.pstate (row : FrameRow) : PState :=
  match row with
  | .invalid | .nbBind | .nbOther => .noBind
  | .wsValid => .waitFirstSynchro
  | .bdBind | .bdControl => .bound

theorem decodeFrame_toBytes {p : PState} {row : FrameRow} {f : Frame} (h : frameRow p f = some row) (now : Nat) :
    decodeFrame p now f.toBytes = .ok (row.instr now f) := by
  simp only [decodeFrame, readFrames_toBytes, h]
  cases row <;> rfl

theorem frameRow_of_wellFormed {row : FrameRow} {now : Nat} {f : Frame} (h : wellFormed (row.instr now f) = true) :
    frameRow row.pstate f = some row := by
  cases row with
  | invalid =>
    have hframe : (!validate f) = true := h
    have hclass : frameClass f = .invalid := frameClass_invalid.mpr ((Bool.not_eq_true' _).mp hframe)
    unfold frameRow
    rw [hclass]
  | nbBind | bdBind =>
    have hframe : (validate f && isBindMarker f) = true := h
    have hclass : frameClass f = .bind := frameClass_bind.mpr ((Bool.and_eq_true_iff).mp hframe)
    unfold frameRow
    rw [hclass]
    rfl
  | nbOther | bdControl =>
    have hframe : (validate f && !isBindMarker f) = true := h
    rw [Bool.and_eq_true_iff, Bool.not_eq_true'] at hframe
    have hclass : frameClass f = .control := frameClass_control.mpr hframe
    unfold frameRow
    rw [hclass]
    rfl
  | wsValid =>
    have hvalid : validate f = true := h
    cases hclass : frameClass f with
    | invalid => rw [frameClass_invalid.mp hclass] at hvalid; cases hvalid
    | bind | control =>
      unfold frameRow
      rw [hclass]
      rfl

/-! ### The decoder on each kind of word the encoder writes -/

theorem decode_reserved {row : CommandRow} {mk : Byte → Instr} {r : Refusal} {cmd : Byte} (h : ReservedRow row mk r)
    (hwf : wellFormed (mk cmd) = true) : decode (.transaction 0 [cmd]) = .ok (mk cmd) :=
  h.decodeTransaction_eq (h.commandRow_eq_iff.mpr hwf) 0 []

theorem decode_seed (c : HopCase) {a : Byte} (hwf : wellFormed (c.instr a) = true) :
    decode (.seed a) = .ok (c.instr a) := by
  have hcase : hopCase a = c := hopCase_eq_iff.mpr hwf
  rw [decode_seed_eq, hcase]

theorem decode_frame (row : FrameRow) {now : Nat} {f : Frame} (hwf : wellFormed (row.instr now f) = true) :
    decode (.frame row.pstate now f.toBytes) = .ok (row.instr now f) :=
  decodeFrame_toBytes (frameRow_of_wellFormed hwf) now

theorem decode_of_encode {i : Instr} {w : EncodedWord} (hwf : wellFormed i = true) (hw : encode i = some w) :
    decode w = .ok i := by
  cases i <;> cases hw
  case tick pend now frames => exact (HostWord.tick pend frames (of_decide_eq_true hwf)).decode_eq
  case reset | checksum | validate | isBindMarker | decodeControls | deriveHopTable | fold8 | fold6 => rfl
  case reservedOpc9 => exact decode_reserved .opc9 hwf
  case reservedOpcAB => exact decode_reserved .opcAB hwf
  case reservedOpcCF => exact decode_reserved .opcCF hwf
  case reservedBit5 => exact decode_reserved .bit5 hwf
  case reservedBit6 => exact decode_reserved .bit6 hwf
  case reservedBit7 => exact decode_reserved .bit7 hwf
  case reservedPendNotTick => exact decode_reserved .pendNotTick hwf
  case tickNbStay | tickNbHop | tickNbDrain | tickWsIdle | tickWsDrain | tickBdStay | tickBdRevert | tickBdDrain => rfl
  case tickReservedPstate3 pend now frames =>
    have hcase : selectorCase (selectorWord .reserved pend) 0 = .reservedPstate3 := by cases pend <;> rfl
    exact (CaseRow.reservedPstate3 pend frames).decodeSelector_eq hcase
  case hopR1Special6 => exact decode_seed .r1Special6 hwf
  case hopR1 => exact decode_seed .r1 hwf
  case hopR2Special16 => exact decode_seed .r2Special16 hwf
  case hopR2 => exact decode_seed .r2 hwf
  case hopR3A => exact decode_seed .r3A hwf
  case hopR3B => exact decode_seed .r3B hwf
  case hopFixed1E => exact decode_seed .fixed1E hwf
  case hopFixed1F => exact decode_seed .fixed1F hwf
  case frameInvalid => exact decode_frame .invalid hwf
  case frameNbBind => exact decode_frame .nbBind hwf
  case frameNbOther => exact decode_frame .nbOther hwf
  case frameWsValid => exact decode_frame .wsValid hwf
  case frameBdBind => exact decode_frame .bdBind hwf
  case frameBdControl => exact decode_frame .bdControl hwf

theorem encode_eq_none_iff (i : Instr) : encode i = none ↔ i = .hopAdvance ∨ i = .bindChannelAdvance := by
  cases i <;> simp [encode]

/-- Settles O56, from the round trip of each kind of word. -/
theorem decodeEncodeAgree : Obligations.DecodeEncodeAgree :=
  ⟨fun _ _ hwf hw => decode_of_encode hwf hw, encode_eq_none_iff⟩

end Sys2Proof
end

section
/-! PROOFS. The results in bits: byte 7 of the OUT layout and the numeric codes (spec/30_encoding.md R78 to R80,
spec/10_state.md R23). -/

namespace Sys2Proof

open Sys2Proof.Machine

/-- Byte 7 of the OUT layout (R78). -/
def Controls.flagsByte (r : Controls) : Byte :=
  (0 : BitVec 4) ++ BitVec.ofBool r.flip ++ BitVec.ofBool r.highspeed ++ BitVec.ofBool r.picture
    ++ BitVec.ofBool r.video

theorem Controls.toBytes_eq (r : Controls) :
    r.toBytes = [r.throttle, r.pitch, r.yaw, r.roll, r.trimPitch, r.trimYaw, r.trimRoll, r.flagsByte] := rfl

theorem Controls.flagsByte_bits (r : Controls) :
    r.flagsByte.getLsbD 0 = r.video ∧ r.flagsByte.getLsbD 1 = r.picture ∧ r.flagsByte.getLsbD 2 = r.highspeed ∧
      r.flagsByte.getLsbD 3 = r.flip ∧ r.flagsByte.toNat < 16 := by
  obtain ⟨_, _, _, _, _, _, _, video, picture, highspeed, flip⟩ := r
  dsimp only [Controls.flagsByte]
  revert video picture highspeed flip
  decide

theorem pstateBits_pstateOfBits (b : BitVec 2) : pstateBits (pstateOfBits b) = b := by
  revert b; decide

/-- Settles O11: the codes are read off the tables, the layout off its eighth byte. -/
theorem resultEncodings : Obligations.ResultEncodings :=
  ⟨fun r => ⟨r.flagsByte, r.toBytes_eq, r.flagsByte_bits⟩, ⟨rfl, rfl, rfl, pstateBits_pstateOfBits⟩,
    ⟨rfl, rfl, rfl, rfl⟩, fun _ _ => ⟨rfl, rfl, rfl, rfl⟩⟩

end Sys2Proof
end

section
/-! PROOFS. The checksum, VALIDATE and IS_BIND_MARKER (spec/41_frame_codec.md R101 to R104): what each unit answers, and
the laws of the checksum. -/

namespace Sys2Proof.Machine

open Sys2Proof

/-- A unit of the codec answers its result, writes no register and emits no command (R100). -/
theorem completes_unitResult (s : State) (r : OpResult) : Completes (.next (s.unitResult r)) s r [] :=
  ⟨_, rfl, sameRegisters_unitResult s r, rfl, rfl⟩

/-! ### CHECKSUM (R101) -/

theorem checksum_toNat (f : Frame) :
    (checksum f).toNat =
      ((f.f0 ^^^ f.f1 ^^^ f.f2 ^^^ f.f3 ^^^ f.f4 ^^^ f.f5 ^^^ f.f6 ^^^ f.f7 ^^^ f.f8).toNat + 0x55) % 256 :=
  BitVec.toNat_add _ _

/-- Settles O3: the unit answers the checksum, and adding bytes is adding modulo 256. -/
theorem checksumOfFrame : Obligations.ChecksumOfFrame := fun f _ s =>
  ⟨(HostWord.checksum f).decode_eq, checksum f, completes_unitResult s _, checksum_toNat f⟩

/-! ### The laws of the checksum (R102) -/

/-- The XOR of some bytes. -/
def xorSum (bytes : List Byte) : Byte :=
  bytes.foldr (· ^^^ ·) 0

@[simp] theorem xorSum_nil : xorSum [] = 0 := rfl

@[simp] theorem xorSum_cons (b : Byte) (bytes : List Byte) : xorSum (b :: bytes) = b ^^^ xorSum bytes := rfl

theorem xorSum_perm {xs ys : List Byte} (h : xs.Perm ys) : xorSum xs = xorSum ys :=
  h.foldr_op_eq

/-- The XOR of bytes around a given one depends on it one-to-one. -/
theorem xorSum_middle_inj {pre post : List Byte} {a b : Byte} :
    xorSum (pre ++ a :: post) = xorSum (pre ++ b :: post) ↔ a = b := by
  rw [xorSum_perm List.perm_middle, xorSum_perm List.perm_middle, xorSum_cons, xorSum_cons, BitVec.xor_left_inj]

theorem checksumFold_eq_xorSum (f : Frame) : checksumFold f = xorSum f.payload := by
  simp [checksumFold, Frame.payload, BitVec.xor_assoc]

/-- Adding CKS_CONST is a bijection, so the checksums agree exactly where the XORs do. -/
theorem checksum_eq_iff {f g : Frame} : checksum f = checksum g ↔ xorSum f.payload = xorSum g.payload := by
  rw [checksum, checksum, BitVec.add_left_inj, checksumFold_eq_xorSum, checksumFold_eq_xorSum]

/-- Settles O4, from the same laws of XOR over a list of bytes. -/
theorem checksumLaws : Obligations.ChecksumLaws := by
  refine ⟨fun f g h => ?_, fun f g h => ?_, fun f g pre post a b hf hg hne heq => hne ?_⟩
  · exact checksum_eq_iff.mpr (congrArg xorSum h)
  · exact checksum_eq_iff.mpr (xorSum_perm h)
  · rw [checksum_eq_iff, hf, hg] at heq
    exact xorSum_middle_inj.mp heq

/-! ### VALIDATE (R103) -/

theorem validate_eq_decide (f : Frame) : validate f = decide (checksum f = f.f9) :=
  beq_eq_decide _ _

/-- The checksum does not read f[9], so the byte that validates is the checksum of the other nine. -/
theorem validate_withF9 (f : Frame) (b : Byte) : validate { f with f9 := b } = true ↔ b = checksum f := by
  have hchecksum : checksum { f with f9 := b } = checksum f := checksum_eq_iff.mpr rfl
  rw [validate_eq_decide, hchecksum, decide_eq_true_iff, eq_comm]

/-- Settles O5: only the byte that is the checksum validates. -/
theorem validateTellsMatch : Obligations.ValidateTellsMatch := by
  intro f now s
  refine ⟨(HostWord.validate f).decode_eq, ?_, checksum f, (validate_withF9 f _).mpr rfl,
    fun b hb => (validate_withF9 f b).mp hb⟩
  rw [← validate_eq_decide]
  exact completes_unitResult s _

/-! ### IS_BIND_MARKER (R104) -/

theorem isBindMarker_eq_decide (f : Frame) : isBindMarker f = decide (f.f5 = 0xAA ∧ f.f6 = 0xAA) := by
  rw [isBindMarker, beq_eq_decide, beq_eq_decide, Bool.decide_and]
  rfl

/-- Settles O6: the unit answers the test of the two bytes. -/
theorem bindMarkerTest : Obligations.BindMarkerTest := by
  intro f now s
  refine ⟨(HostWord.isBindMarker f).decode_eq, ?_⟩
  rw [← isBindMarker_eq_decide]
  exact completes_unitResult s _

end Sys2Proof.Machine
end

section
/-! PROOFS. The folds as sign-magnitude decoders, and the record of DECODE (spec/41_frame_codec.md R106 to R110). -/

namespace Sys2Proof.Machine

open Sys2Proof

/-! ### The rule both folds follow (R108) -/

/-- The sign-fold of a field whose sign bit has the weight `t`. -/
def signFold (t n : Nat) : Int :=
  if t ≤ n then (t : Int) - n else n

/-- Under its sign bit a field is its magnitude, negated. -/
theorem signFold_of_le {t n : Nat} (h : t ≤ n) : signFold t n = -((n : Int) - t) := by
  rw [signFold, if_pos h]
  omega

theorem signFold_eq_zero_iff {t n : Nat} : signFold t n = 0 ↔ n = 0 ∨ n = t := by
  unfold signFold
  split <;> omega

/-- A fold that is not zero has the sign of its field, which so is read back from it. -/
theorem signFold_inj {t m n : Nat} (h : signFold t m = signFold t n) (hne : signFold t m ≠ 0) : m = n := by
  unfold signFold at h hne
  split_ifs at h hne <;> omega

/-- Bits 5:0 of a byte (R107). -/
theorem toNat_and_lowSix (b : Byte) : (b &&& 0x3F).toNat = b.toNat % 64 :=
  (BitVec.toNat_and b 0x3F).trans (Nat.and_two_pow_sub_one_eq_mod b.toNat 6)

theorem fold8_toInt_eq (v : Byte) : (fold8 v).toInt = signFold 128 v.toNat :=
  fold8_toInt v

theorem fold6_toInt_eq (b : Byte) : (fold6 b).toInt = signFold 32 (b.toNat % 64) := by
  rw [fold6_toInt, ← toNat_and_lowSix]
  rfl

/-- On a 6-bit field FOLD6 is the sign-fold of the whole byte. -/
theorem fold6_toInt_of_lt {b : Byte} (h : b.toNat < 64) : (fold6 b).toInt = signFold 32 b.toNat := by
  rw [fold6_toInt_eq, Nat.mod_eq_of_lt h]

/-! ### FOLD8 and FOLD6 (R106, R107) -/

/-- FOLD6 does not read bits 7:6, so masking them first changes nothing. -/
theorem fold6_and_lowSix (b : Byte) : fold6 (b &&& 0x3F) = fold6 b := by
  apply BitVec.eq_of_toInt_eq
  rw [fold6_toInt_eq, fold6_toInt_eq, toNat_and_lowSix, Nat.mod_mod]

theorem fold8_ne_minus_128 (v : Byte) : (fold8 v).toInt ≠ -128 := by
  obtain ⟨hlo, -⟩ := fold8_toInt_range v
  omega

/-- Settles O7: the stored byte holds the exact value, which is at least -127. -/
theorem fold8IsSignFold : Obligations.Fold8IsSignFold :=
  ⟨fun v _ s => ⟨(HostWord.fold8 v).decode_eq, fold8 v, completes_unitResult s _, fold8_toInt_eq v,
    fold8_ne_minus_128 v⟩, fun _ => ⟨rfl, rfl, rfl⟩⟩

/-- Settles O8: the mask of the operand is its remainder modulo 64. -/
theorem fold6IsSignFold : Obligations.Fold6IsSignFold :=
  ⟨fun v _ s => ⟨(HostWord.fold6 v).decode_eq, fold6 v, completes_unitResult s _, fold6_toInt_eq v⟩,
    fun f => ⟨(fold6_and_lowSix f.f5).symm, (fold6_and_lowSix f.f6).symm, (fold6_and_lowSix f.f7).symm⟩⟩

/-! ### Zeros and injectivity (R108) -/

theorem eq_zero_iff_toInt {b : Byte} : b = 0 ↔ b.toInt = 0 :=
  BitVec.toInt_inj.symm

theorem fold8_eq_zero_iff (v : Byte) : fold8 v = 0 ↔ v = 0x00 ∨ v = 0x80 := by
  rw [eq_zero_iff_toInt, fold8_toInt_eq, signFold_eq_zero_iff, ← BitVec.toNat_inj, ← BitVec.toNat_inj]
  rfl

theorem fold6_eq_zero_iff {v : Byte} (hv : v.toNat < 64) : fold6 v = 0 ↔ v = 0x00 ∨ v = 0x20 := by
  rw [eq_zero_iff_toInt, fold6_toInt_of_lt hv, signFold_eq_zero_iff, ← BitVec.toNat_inj, ← BitVec.toNat_inj]
  rfl

theorem fold8_inj {v w : Byte} (h : fold8 v = fold8 w) (hne : fold8 v ≠ 0) : v = w := by
  rw [← BitVec.toInt_inj, fold8_toInt_eq, fold8_toInt_eq] at h
  rw [ne_eq, eq_zero_iff_toInt, fold8_toInt_eq] at hne
  exact BitVec.eq_of_toNat_eq (signFold_inj h hne)

theorem fold6_inj {v w : Byte} (hv : v.toNat < 64) (hw : w.toNat < 64) (h : fold6 v = fold6 w)
    (hne : fold6 v ≠ 0) : v = w := by
  rw [← BitVec.toInt_inj, fold6_toInt_of_lt hv, fold6_toInt_of_lt hw] at h
  rw [ne_eq, eq_zero_iff_toInt, fold6_toInt_of_lt hv] at hne
  exact BitVec.eq_of_toNat_eq (signFold_inj h hne)

/-- Settles O9, for both folds from the rule they share. -/
theorem foldsAreSignMagnitude : Obligations.FoldsAreSignMagnitude :=
  ⟨fun v h => (fold8_toInt_eq v).trans (signFold_of_le h),
    fun _ h hlt => (fold6_toInt_of_lt hlt).trans (signFold_of_le h),
    fold8_eq_zero_iff, fun _ hv => fold6_eq_zero_iff hv,
    fun _ _ h hne => fold8_inj h hne, fun _ _ hv hw h hne => fold6_inj hv hw h hne⟩

/-! ### DECODE (R109, R110) -/

theorem flagBit_eq_decide (src : Config.FlagSrc) (f : Frame) :
    flagBit src f = decide (f.flagByte src.byte &&& src.mask ≠ 0) := by
  rw [flagBit, bne, beq_eq_decide, ← decide_not]

/-- Settles O10: the unit answers DECODE's record; its flags are tests, and its trims do not need the mask. -/
theorem decodeExtractsControls : Obligations.DecodeExtractsControls := fun f _ s =>
  ⟨(HostWord.decodeControls f).decode_eq, decodeControls f, completes_unitResult s _, rfl, rfl, rfl, rfl,
    (fold6_and_lowSix f.f5).symm, (fold6_and_lowSix f.f6).symm, (fold6_and_lowSix f.f7).symm,
    flagBit_eq_decide _ f, flagBit_eq_decide _ f, flagBit_eq_decide _ f, flagBit_eq_decide _ f⟩

end Sys2Proof.Machine
end

section
/-! PROOFS. Frames that are passed over: an invalid frame has no effect of its own, alone or in a batch, and a control
frame has none in NO_BIND (spec/41_frame_codec.md R112, spec/43_state_machine.md R179). -/

namespace Sys2Proof.Machine

open Sys2Proof

/-! ### One frame -/

theorem frameRow_noBind_control {f : Frame} (h : isControlFrame f) : frameRow .noBind f = some .nbOther := by
  unfold frameRow
  rw [frameClass_control.mpr h]

/-- Settles O38: each of the two rows, where it is selected, answers the state it was given. -/
theorem passedOverFramesChangeNothing : Obligations.PassedOverFramesChangeNothing := by
  refine ⟨fun f s hinvalid => execFrameInvalid_next_iff.mpr ⟨hinvalid, rfl⟩, fun f s hreset hp hf => ?_⟩
  have hrow : frameRow s.pstate f = some .nbOther := hp ▸ frameRow_noBind_control hf
  exact runFrameRow_next_iff.mpr ⟨hreset, hrow, rfl⟩

/-! ### A batch: each drain does what it does with the valid frames alone -/

/-- A loop that passes over invalid frames. -/
theorem foldl_filter_validate {act : State → Frame → State} (hact : ∀ s f, validate f = false → act s f = s)
    (frames : List Frame) (s : State) : (frames.filter validate).foldl act s = frames.foldl act s := by
  rw [List.foldl_filter]
  congr
  funext s f
  split
  · rfl
  · next hv => exact (hact s f (Bool.eq_false_of_not_eq_true hv)).symm

theorem wsFrame_of_invalid (now : Nat) (s : State) (f : Frame) (h : validate f = false) : wsFrame now s f = s := by
  simp [wsFrame, h]

theorem bdFrame_of_invalid (now : Nat) (s : State) (f : Frame) (h : validate f = false) : bdFrame now s f = s := by
  simp [bdFrame, frameClass_invalid.mpr h]

theorem nbDrainFrames_filter_validate (now : Nat) (frames : List Frame) (s : State) :
    nbDrainFrames now (frames.filter validate) s = nbDrainFrames now frames s := by
  induction frames with
  | nil => rfl
  | cons f fs ih =>
    cases hc : frameClass f with
    | invalid =>
      rw [List.filter_cons_of_neg (by simp [frameClass_invalid.mp hc]), ih]
      simp only [nbDrainFrames, hc]
    | bind =>
      rw [List.filter_cons_of_pos (frameClass_bind.mp hc).1]
      simp only [nbDrainFrames, hc]
    | control =>
      rw [List.filter_cons_of_pos (frameClass_control.mp hc).1]
      simp only [nbDrainFrames, hc, ih]

/-- Every case of TICK does with a batch what it does with the valid frames of the batch. -/
theorem runCase_filter_validate (c : TickCase) (now : Nat) (frames : List Frame) (s : State) :
    runCase c now (frames.filter validate) s = runCase c now frames s := by
  cases c with
  | nbDrain => simp only [runCase, nbDrain, nbDrainFrames_filter_validate]
  | wsDrain => simp only [runCase, wsDrain, foldl_filter_validate (wsFrame_of_invalid now)]
  | bdDrain => simp only [runCase, bdDrain, foldl_filter_validate (bdFrame_of_invalid now)]
  | nbStay | nbHop | wsIdle | bdStay | bdRevert | reservedPstate3 => rfl

/-- Settles O43: both TICKs are accepted and pick the same case, which sees the valid frames only. -/
theorem invalidFramesHaveNoEffect : Obligations.InvalidFramesHaveNoEffect := by
  intro now frames others s hframes hothers hvalid
  calc exec (.tick true now frames) s
      = runCase (tickCase true now s) now frames s := execTick_of_accepted hframes
    _ = runCase (tickCase true now s) now (frames.filter validate) s := (runCase_filter_validate _ now frames s).symm
    _ = runCase (tickCase true now s) now (others.filter validate) s := by rw [hvalid]
    _ = runCase (tickCase true now s) now others s := runCase_filter_validate _ now others s
    _ = exec (.tick true now others) s := (execTick_of_accepted hothers).symm

end Sys2Proof.Machine
end

section
/-! PROOFS. What a step writes to OUT: RESET clears it, and a BOUND drain puts the record of its last control frame
there (spec/41_frame_codec.md R105, spec/43_state_machine.md R187, R189). -/

namespace Sys2Proof.Machine

open Sys2Proof

/-- `t` has the OUT of `s`, and does not report new values. -/
def KeepsOut (s t : State) : Prop :=
  t.out = s.out ∧ t.result ≠ .status .boundNewValues

/-- `t` reports new values, and its OUT is the record of the last control frame of a batch. -/
def DeliversLastControl (frames : List Frame) (t : State) : Prop :=
  t.result = .status .boundNewValues ∧ ∃ pre f post, frames = pre ++ f :: post ∧ isControlFrame f ∧
    (∀ g ∈ post, ¬isControlFrame g) ∧ t.out = some (decodeControls f)

theorem keepsOut_unitResult (s : State) {r : OpResult} (h : r ≠ .status .boundNewValues) :
    KeepsOut s (s.unitResult r) :=
  ⟨rfl, h⟩

theorem keepsOut_of_status {s t : State} {st : Status} (hout : t.out = s.out) (hresult : t.result = .status st)
    (hst : st ≠ .boundNewValues) : KeepsOut s t :=
  ⟨hout, by simpa [hresult] using hst⟩

/-! ### TICK -/

theorem nbDrain_keepsOut (now : Nat) (frames : List Frame) (s : State) : KeepsOut s (nbDrain now frames s) := by
  rcases nbDrain_cases frames with hnone | ⟨pre, f, post, rfl, hpre, hf⟩
  · rw [nbDrain_no_bind now s hnone]
    exact keepsOut_of_status rfl rfl (by decide)
  · rw [nbDrain_first_bind now post s hpre hf]
    exact keepsOut_of_status rfl rfl (by decide)

theorem wsDrain_keepsOut (now : Nat) (frames : List Frame) (s : State) : KeepsOut s (wsDrain now frames s) := by
  cases hv : frames.any validate with
  | false =>
    rw [wsDrain_no_valid now s hv]
    exact keepsOut_of_status rfl rfl (by decide)
  | true =>
    rw [wsDrain_valid now s hv]
    exact keepsOut_of_status rfl rfl (by decide)

theorem bdDrain_out (now : Nat) (frames : List Frame) (s : State) :
    KeepsOut s (bdDrain now frames s) ∨ DeliversLastControl frames (bdDrain now frames s) := by
  rcases bdDrain_cases frames with hnone | ⟨pre, f, post, rfl, hf, hpost⟩
  · left
    cases hv : frames.any validate with
    | false =>
      rw [bdDrain_no_valid now s hnone hv]
      exact keepsOut_of_status rfl rfl (by decide)
    | true =>
      rw [bdDrain_bind_only now s hnone hv]
      exact keepsOut_of_status rfl rfl (by decide)
  · right
    rw [bdDrain_last_control now pre s hf hpost]
    exact ⟨rfl, pre, f, post, rfl, hf, hpost, rfl⟩

/-- Only a pending TICK in BOUND writes OUT. -/
theorem execTick_out {pend : Bool} {now : Nat} {frames : List Frame} {s t : State}
    (h : execTick pend now frames s = .next t) :
    KeepsOut s t ∨ (s.pstate = .bound ∧ pend = true ∧ DeliversLastControl frames t) := by
  obtain ⟨-, hrun⟩ := execTick_next h
  rcases runTickCase_next hrun with ⟨-, -, -, rfl⟩ | ⟨-, -, -, rfl⟩ | ⟨-, -, rfl⟩ | ⟨-, -, rfl⟩ | ⟨-, -, rfl⟩ |
    ⟨-, -, -, rfl⟩ | ⟨-, -, -, rfl⟩ | ⟨hp, hpend, rfl⟩
  · exact .inl (keepsOut_of_status rfl rfl (by decide))
  · exact .inl (keepsOut_of_status rfl rfl (by decide))
  · exact .inl (nbDrain_keepsOut now frames s)
  · exact .inl (keepsOut_of_status rfl rfl (by decide))
  · exact .inl (wsDrain_keepsOut now frames s)
  · exact .inl (keepsOut_of_status rfl rfl (by decide))
  · exact .inl (keepsOut_of_status rfl rfl (by decide))
  · exact (bdDrain_out now frames s).imp_right fun hnew => ⟨hp, hpend, hnew⟩

/-! ### Every step -/

/-- What the instruction of a transaction does to OUT, where it answers a next state. -/
theorem exec_hostWord_out {now : Nat} {bytes : List Byte} {i : Instr} {s t : State} (hw : HostWord now bytes i)
    (h : exec i s = .next t) :
    KeepsOut s t ∨ (bytes = [0x00] ∧ t.out = none) ∨
      (s.pstate = .bound ∧ ∃ frames, i = .tick true now frames ∧ DeliversLastControl frames t) := by
  cases hw with
  | reset =>
    cases h
    exact .inr (.inl ⟨rfl, rfl⟩)
  | tick pend frames hlen =>
    rcases execTick_out h with hkeep | ⟨hp, rfl, hnew⟩
    · exact .inl hkeep
    · exact .inr (.inr ⟨hp, frames, rfl, hnew⟩)
  | checksum | validate | isBindMarker | decodeControls | deriveHopTable | fold8 | fold6 =>
    cases h
    exact .inl (keepsOut_unitResult s nofun)
  | reserved hres =>
    rw [hres.exec_eq] at h
    cases h

/-- Settles O47, by the request the step takes: a read of OUT reports no status, and a transaction runs one of the
instructions above. -/
theorem outTakesControlFramesOnly : Obligations.OutTakesControlFramesOnly := by
  intro s t h
  rcases step_next h with ⟨rest, r, -, -, rfl⟩ | ⟨now, bytes, rest, i, hreq, hd, hexec⟩
  · exact .inl (keepsOut_unitResult { s with requests := rest } nofun)
  · rcases exec_hostWord_out (hostWord_of_decode hd) hexec with
      hkeep | ⟨rfl, hout⟩ | ⟨hp, _, rfl, hresult, pre, f, post, rfl, hf, hpost, hout⟩
    · exact .inl hkeep
    · exact .inr (.inl ⟨now, rest, hreq, hout⟩)
    · exact .inr (.inr ⟨hp, hresult, now, bytes, rest, pre, f, post, hreq, hd, hf, hpost, hout⟩)

end Sys2Proof.Machine
end

section
/-! PROOFS. The channel-hop scheduler (spec/42_hop_scheduler.md): the two index steps (R153, R154), the table of each
case of DERIVE_HOP_TABLE on its range of low5 (R141 to R148), and the bounds of every channel (R152). -/

namespace Sys2Proof

/-! ### The entry that an index selects (R50) -/

theorem index_cases (i : BitVec 2) : i = 0 ∨ i = 1 ∨ i = 2 ∨ i = 3 := by
  revert i; decide

/-- An index selects the entry at that place of the list of the four. -/
theorem ChannelTable.getElem?_toNat (t : ChannelTable) (i : BitVec 2) :
    [t.c0, t.c1, t.c2, t.c3][i.toNat]? = some (t.get i) := by
  rcases index_cases i with rfl | rfl | rfl | rfl <;> rfl

/-- What holds of the four entries holds of the one that an index selects. -/
theorem ChannelTable.get_of_entries {P : Byte → Prop} {t : ChannelTable} (h0 : P t.c0) (h1 : P t.c1) (h2 : P t.c2)
    (h3 : P t.c3) (i : BitVec 2) : P (t.get i) := by
  rcases index_cases i with rfl | rfl | rfl | rfl
  exacts [h0, h1, h2, h3]

/-! ### The eight cases as ranges of low5 (R142 to R148) -/

/-- The range of low5 of each case. -/
def HopCase.InRange (c : HopCase) (n : Nat) : Prop :=
  match c with
  | .r1Special6 => n = 0x06
  | .r1 => n < 0x10 ∧ n ≠ 0x06
  | .r2Special16 => n = 0x16
  | .r2 => 0x10 ≤ n ∧ n < 0x18 ∧ n ≠ 0x16
  | .r3A => 0x18 ≤ n ∧ n < 0x1C
  | .r3B => 0x1C ≤ n ∧ n < 0x1E
  | .fixed1E => n = 0x1E
  | .fixed1F => n = 0x1F

/-- The table of each case at a low5 of its range. -/
def HopCase.tableAt (c : HopCase) (n : Nat) : ChannelTable :=
  match c with
  | .r1Special6 => ⟨0x11, 0x21, 0x31, 0x41⟩
  | .r1 => ⟨.ofNat 8 (0x0a + n), .ofNat 8 (0x1a + n), .ofNat 8 (0x2a + n), .ofNat 8 (0x3a + n)⟩
  | .r2Special16 => ⟨0x31, 0x11, 0x48, 0x28⟩
  | .r2 => ⟨.ofNat 8 (0x2a + n % 8), .ofNat 8 (0x0a + n % 8), .ofNat 8 (0x42 + n % 8), .ofNat 8 (0x22 + n % 8)⟩
  | .r3A | .r3B =>
    ⟨.ofNat 8 (0x1a + n % 8), .ofNat 8 (0x3a + n % 8), .ofNat 8 (0x12 + n % 8), .ofNat 8 (0x32 + n % 8)⟩
  | .fixed1E => ⟨0x21, 0x41, 0x18, 0x38⟩
  | .fixed1F => ⟨0x21, 0x41, 0x19, 0x39⟩

end Sys2Proof

namespace Sys2Proof.Machine

open Sys2Proof

/-! ### The index steps (R153, R154) -/

/-- Settles O16: an index of two bits counts modulo 4. -/
theorem hopAdvanceRetunes : Obligations.HopAdvanceRetunes := fun s hreset =>
  ⟨s.hopIdx + 1, s.hopTable.get (s.hopIdx + 1), BitVec.toNat_add s.hopIdx 1,
    s.hopTable.getElem?_toNat _, runIndexStep_next_iff.mpr ⟨hreset, stepHopIndex_eq s⟩⟩

/-- Settles O17: the same step over the fixed table of bind channels. -/
theorem bindChannelAdvanceRetunes : Obligations.BindChannelAdvanceRetunes := fun s hreset =>
  ⟨s.bindIdx + 1, bindChannels.get (s.bindIdx + 1), BitVec.toNat_add s.bindIdx 1,
    bindChannels.getElem?_toNat _, runIndexStep_next_iff.mpr ⟨hreset, stepBindIndex_eq s⟩⟩

/-! ### The offsets as numbers (R81) -/

theorem low5_eq_ofNat (a : Byte) : low5 a = BitVec.ofNat 8 (a.toNat % 32) := by
  rw [← Nat.and_two_pow_sub_one_eq_mod a.toNat 5, BitVec.ofNat_and, BitVec.ofNat_toNat, BitVec.setWidth_eq]
  rfl

theorem lowThree_eq_ofNat (a : Byte) : lowThree a = BitVec.ofNat 8 (a.toNat % 32 % 8) := by
  rw [← Nat.and_two_pow_sub_one_eq_mod (a.toNat % 32) 3, BitVec.ofNat_and, ← low5_eq_ofNat]
  rfl

/-- Adding an offset to a table of numbers. -/
theorem addOffset_ofNat (b0 b1 b2 b3 off : Nat) :
    ChannelTable.addOffset ⟨.ofNat 8 b0, .ofNat 8 b1, .ofNat 8 b2, .ofNat 8 b3⟩ (.ofNat 8 off) =
      ⟨.ofNat 8 (b0 + off), .ofNat 8 (b1 + off), .ofNat 8 (b2 + off), .ofNat 8 (b3 + off)⟩ := by
  simp only [ChannelTable.addOffset, BitVec.ofNat_add]

/-! ### The eight cases -/

/-- The masks and matches of R76, first match first, select the ranges: per case, a fact about 256 bytes. -/
theorem hopCase_eq_iff_inRange {c : HopCase} {a : Byte} : hopCase a = c ↔ c.InRange (a.toNat % 32) := by
  cases c <;> unfold HopCase.InRange <;> revert a <;> decide

/-- Where an address byte lies in the range of a case, the unit of that case gives the table of the rule. -/
theorem hopCaseTable_eq_tableAt {c : HopCase} {a : Byte} (h : c.InRange (a.toNat % 32)) :
    hopCaseTable c a = c.tableAt (a.toNat % 32) := by
  cases c with
  | r1Special6 | fixed1E | fixed1F => rfl
  | r1 =>
    rw [hopCaseTable, low5_eq_ofNat]
    exact addOffset_ofNat 0x0a 0x1a 0x2a 0x3a _
  | r2Special16 =>
    have hlow : a.toNat % 32 = 0x16 := h
    rw [hopCaseTable, lowThree_eq_ofNat, hlow]
    rfl
  | r2 =>
    rw [hopCaseTable, lowThree_eq_ofNat]
    exact addOffset_ofNat 0x2a 0x0a 0x42 0x22 _
  | r3A | r3B =>
    rw [hopCaseTable, lowThree_eq_ofNat]
    exact addOffset_ofNat 0x1a 0x3a 0x12 0x32 _

/-- A case row completes with its table at every address byte of its range. -/
theorem completes_hopCase {c : HopCase} {a : Byte} (s : State) (h : c.InRange (a.toNat % 32)) :
    Completes (exec (c.instr a) s) s (.table (c.tableAt (a.toNat % 32))) [] := by
  have hnext : runHopCase c a s = .next (s.unitResult (.table (hopCaseTable c a))) :=
    runHopCase_next_iff.mpr ⟨hopCase_eq_iff_inRange.mpr h, rfl⟩
  rw [exec_hopCase_instr, hnext, hopCaseTable_eq_tableAt h]
  exact completes_unitResult s _

/-- Settles O13, from the range and the table of each of the eight cases. -/
theorem hopCasesGiveTheirTables : Obligations.HopCasesGiveTheirTables := fun _ s =>
  ⟨fun h => completes_hopCase (c := .r1Special6) s h,
    fun hlt hne => completes_hopCase (c := .r1) s ⟨hlt, hne⟩,
    fun h => completes_hopCase (c := .r2Special16) s h,
    fun hle hlt hne => completes_hopCase (c := .r2) s ⟨hle, hlt, hne⟩,
    fun hle hlt => completes_hopCase (c := .r3A) s ⟨hle, hlt⟩,
    fun hle hlt => completes_hopCase (c := .r3B) s ⟨hle, hlt⟩,
    fun h => completes_hopCase (c := .fixed1E) s h,
    fun h => completes_hopCase (c := .fixed1F) s h⟩

/-! ### DERIVE_HOP_TABLE as one chain of ranges (R141) -/

theorem hopCase_inRange (a : Byte) : (hopCase a).InRange (a.toNat % 32) :=
  hopCase_eq_iff_inRange.mp rfl

/-- R141's if-chain over low5, with the two special cases inside the ranges of HOP.R1 and HOP.R2. -/
def rangeTable (n : Nat) : ChannelTable :=
  if n < 0x10 then
    let off := if n = 0x06 then 0x07 else n
    ⟨.ofNat 8 (0x0a + off), .ofNat 8 (0x1a + off), .ofNat 8 (0x2a + off), .ofNat 8 (0x3a + off)⟩
  else if n < 0x18 then
    let off := n % 8
    let extra := if n = 0x16 then 1 else 0
    ⟨.ofNat 8 (0x2a + off + extra), .ofNat 8 (0x0a + off + extra), .ofNat 8 (0x42 + off), .ofNat 8 (0x22 + off)⟩
  else if n < 0x1E then
    let off := n % 8
    ⟨.ofNat 8 (0x1a + off), .ofNat 8 (0x3a + off), .ofNat 8 (0x12 + off), .ofNat 8 (0x32 + off)⟩
  else if n = 0x1E then ⟨0x21, 0x41, 0x18, 0x38⟩
  else ⟨0x21, 0x41, 0x19, 0x39⟩

/-- In the range of a case the chain reaches the table of that case. -/
theorem tableAt_eq_rangeTable {c : HopCase} {n : Nat} (h : c.InRange n) : c.tableAt n = rangeTable n := by
  cases c with
  | r1Special6 | r2Special16 | fixed1E | fixed1F => cases h; rfl
  | r1 =>
    obtain ⟨hlt, hne⟩ := h
    simp only [rangeTable, if_pos hlt, if_neg hne]
    rfl
  | r2 =>
    obtain ⟨hle, hlt, hne⟩ := h
    simp only [rangeTable, if_neg hle.not_gt, if_pos hlt, if_neg hne]
    rfl
  | r3A | r3B =>
    obtain ⟨hle, hlt⟩ := h
    have h10 : ¬n < 0x10 := by omega
    have h18 : ¬n < 0x18 := by omega
    have h1E : n < 0x1E := by omega
    simp only [rangeTable, if_neg h10, if_neg h18, if_pos h1E]
    rfl

/-- Settles O12: DERIVE_HOP_TABLE runs the case that the byte selects, whose range is a branch of the chain. -/
theorem deriveHopTableFollowsRanges : Obligations.DeriveHopTableFollowsRanges := by
  intro a now s
  refine ⟨(HostWord.deriveHopTable a).decode_eq, ?_⟩
  have hcase := completes_hopCase s (hopCase_inRange a)
  rw [← exec_deriveHopTable_eq, tableAt_eq_rangeTable (hopCase_inRange a)] at hcase
  exact hcase

/-! ### The bounds of the channels (R152) -/

theorem hopChannel_ofNat {n : Nat} (hlo : 0x0a ≤ n) (hhi : n ≤ 0x49) : hopChannel (.ofNat 8 n) := by
  rw [hopChannel, BitVec.toNat_ofNat]
  omega

/-- The entries of a case, at every low5 of its range. -/
theorem hopChannel_tableAt {c : HopCase} {n : Nat} (h : c.InRange n) (i : BitVec 2) :
    hopChannel ((c.tableAt n).get i) := by
  cases c with
  | r1Special6 | r2Special16 | fixed1E | fixed1F =>
    cases h
    apply ChannelTable.get_of_entries <;> exact ⟨by decide, by decide⟩
  | r1 =>
    obtain ⟨hlt, -⟩ := h
    apply ChannelTable.get_of_entries <;> apply hopChannel_ofNat <;> omega
  | r2 | r3A | r3B =>
    have hoff : n % 8 < 8 := Nat.mod_lt n (by decide)
    apply ChannelTable.get_of_entries <;> apply hopChannel_ofNat <;> omega

/-- Settles O15: the table is that of the selected case, and the bind channels are four constants. -/
theorem hopChannelsInRange : Obligations.HopChannelsInRange := by
  refine ⟨fun a i => ?_, fun i => ?_⟩
  · rw [deriveHopTable, hopCaseTable_eq_tableAt (hopCase_inRange a)]
    exact hopChannel_tableAt (hopCase_inRange a) i
  · exact ChannelTable.get_of_entries (P := fun c => 0x20 ≤ c.toNat ∧ c.toNat ≤ 0x4b)
      (by decide) (by decide) (by decide) (by decide) i

end Sys2Proof.Machine
end

section
/-! PROOFS. RESET (spec/43_state_machine.md R170): what it writes, in any state. -/

namespace Sys2Proof.Machine

open Sys2Proof

theorem exec_reset_completes (now : Nat) (s : State) :
    Completes (exec (.reset now) s)
      { s with
        resetDone := true, pstate := .noBind, bindIdx := 0, hopIdx := 0, hopTable := ⟨0, 0, 0, 0⟩
        txAddr := ⟨0, 0, 0, 0, 0⟩, lastTs := now, out := none, progChan := bindChannels.c0
        progAddr := Config.bindAddress }
      .nothing [.setAddress Config.bindAddress, .setChannel bindChannels.c0] :=
  ⟨_, rfl, .of_outputs, rfl, rfl⟩

/-- Settles O1: the byte 0x00 is a host word, and RESET answers at once. -/
theorem resetLeavesEveryRegister : Obligations.ResetLeavesEveryRegister :=
  ⟨fun _ => HostWord.reset.decode_eq, exec_reset_completes⟩

end Sys2Proof.Machine
end

section
/-! PROOFS. When a TICK is refused, and when its transaction is (spec/43_state_machine.md R172, spec/30_encoding.md
R72, R83). -/

namespace Sys2Proof

open Sys2Proof.Machine

/-! ### The frames of a batch (R55, R83) -/

/-- Any bytes are those of a batch where there are ten for each frame. -/
theorem exists_frames_of_length {n : Nat} {bytes : List Byte} (h : bytes.length = 10 * n) :
    ∃ frames : List Frame, frames.length = n ∧ writeFrames frames = bytes := by
  induction n generalizing bytes with
  | zero => exact ⟨[], rfl, (List.eq_nil_of_length_eq_zero h).symm⟩
  | succ n ih =>
    have hhead : (bytes.take 10).length = 10 := by rw [List.length_take]; omega
    have htail : (bytes.drop 10).length = 10 * n := by rw [List.length_drop]; omega
    obtain ⟨f, hf⟩ := exists_frame_of_length hhead
    obtain ⟨fs, rfl, hfs⟩ := ih htail
    exact ⟨f :: fs, rfl, by rw [writeFrames, hf, hfs, List.take_append_drop]⟩

theorem readFrames_of_length_ne {n : Nat} {bytes : List Byte} (h : bytes.length ≠ 10 * n) :
    readFrames n bytes = none := by
  cases hread : readFrames n bytes with
  | none => rfl
  | some frames =>
    obtain ⟨rfl, rfl⟩ := readFrames_eq_some hread
    exact absurd (Laws.EncodingLength.writeFrames_length frames) h

theorem withBatch_of_length_ne (mk : List Frame → Instr) {nfr : Byte} {bytes : List Byte}
    (h : bytes.length ≠ 10 * nfr.toNat) : withBatch mk (nfr :: bytes) = .error .badFrameLength := by
  simp only [withBatch, readFrames_of_length_ne h]

theorem withBatch_writeFrames (mk : List Frame → Instr) {nfr : Byte} {frames : List Frame}
    (h : frames.length = nfr.toNat) : withBatch mk (nfr :: writeFrames frames) = .ok (mk frames) := by
  simp only [withBatch, ← h, readFrames_writeFrames]

/-- The two command bytes of TICK (R71). -/
theorem decode_tick_byte {cmd : Byte} (h : cmd = 0x01 ∨ cmd = 0x11) (now : Nat) (operands : List Byte) :
    decode (.transaction now (cmd :: operands)) = withBatch (.tick (decide (cmd = 0x11)) now) operands := by
  rcases h with rfl | rfl <;> rfl

end Sys2Proof

namespace Sys2Proof.Machine

open Sys2Proof

/-! ### Refusals of a TICK -/

/-- A case answers a next state or the fault of PSTATE = 3, but no refusal. -/
theorem runCase_ne_refused (c : TickCase) (now : Nat) (frames : List Frame) (s : State) (r : Refusal) :
    runCase c now frames s ≠ .refused r := by
  cases c <;> exact nofun

theorem execTick_refused_iff {pend : Bool} {now : Nat} {frames : List Frame} {s : State} {r : Refusal} :
    execTick pend now frames s = .refused r ↔ tickRefusal pend now frames s = some r := by
  cases hr : tickRefusal pend now frames s with
  | none => simp [execTick, hr, runCase_ne_refused]
  | some e => simp [execTick, hr]

theorem tickAccepted_iff {pend : Bool} {now : Nat} {frames : List Frame} {s : State} :
    TickAccepted pend now frames s ↔
      s.resetDone = true ∧ s.lastTs ≤ now ∧ (pend = false → frames = []) ∧
        ∀ k, Config.rxqDepth = .bounded k → frames.length ≤ k + 1 := by
  rw [← queueHolds_iff]
  exact ⟨fun ⟨hreset, htime, hpend, hfits⟩ => ⟨hreset, htime, hpend, hfits⟩,
    fun ⟨hreset, htime, hpend, hfits⟩ => ⟨hreset, htime, hpend, hfits⟩⟩

theorem exists_refused_iff_not_accepted {pend : Bool} {now : Nat} {frames : List Frame} {s : State} :
    (∃ r, execTick pend now frames s = .refused r) ↔ ¬TickAccepted pend now frames s := by
  simp only [execTick_refused_iff, ← tickRefusal_eq_none, ← Option.ne_none_iff_exists', ne_eq]

/-- Settles O18: the checks of a TICK are R172's conditions, and NFR frames are read from 10 bytes each only. -/
theorem tickRefusedUnlessDutiesHold : Obligations.TickRefusedUnlessDutiesHold := by
  refine ⟨fun pend now frames s => ?_, fun cmd nfr now bytes hcmd => ?_⟩
  · rw [← tickAccepted_iff]
    exact exists_refused_iff_not_accepted
  · rw [decode_tick_byte hcmd]
    refine ⟨fun hlen => withBatch_of_length_ne _ hlen, fun hlen => ?_⟩
    obtain ⟨frames, hcount, rfl⟩ := exists_frames_of_length hlen
    exact ⟨frames, rfl, hcount, withBatch_writeFrames _ hcount⟩

/-! ### Faults and dispatch of an accepted TICK (R173, R190) -/

theorem tickAccepted_idle {now : Nat} {s : State} (hreset : s.resetDone = true) (htime : s.lastTs ≤ now) :
    TickAccepted false now [] s :=
  ⟨hreset, htime, fun _ => rfl, queueHolds_zero⟩

theorem execTick_of_reserved {pend : Bool} {now : Nat} {frames : List Frame} {s : State}
    (hacc : TickAccepted pend now frames s) (hp : s.pstate = .reserved) :
    execTick pend now frames s = .fault .reservedPstate := by
  rw [execTick_of_accepted hacc, tickCase_reserved hp]
  rfl

/-- Settles O24: in each PSTATE, PEND and range of the elapsed time, the row of the case that the TICK selects. -/
theorem tickDispatchesOnStateAndPend : Obligations.TickDispatchesOnStateAndPend := by
  intro pend now frames s hacc
  cases pend with
  | false =>
    obtain rfl : frames = [] := hacc.pendIfFrames rfl
    cases hp : s.pstate with
    | noBind =>
      have hcase := tickCase_noBind_idle (now := now) hp
      split at hcase
      · next hle => rw [if_pos hle]; exact CaseRow.nbHop.exec_tick_eq hacc hcase
      · next hgt => rw [if_neg hgt]; exact CaseRow.nbStay.exec_tick_eq hacc hcase
    | waitFirstSynchro => exact CaseRow.wsIdle.exec_tick_eq hacc (tickCase_wait_idle hp)
    | bound =>
      have hcase := tickCase_bound_idle (now := now) hp
      split at hcase
      · next hle => rw [if_pos hle]; exact CaseRow.bdRevert.exec_tick_eq hacc hcase
      · next hgt => rw [if_neg hgt]; exact CaseRow.bdStay.exec_tick_eq hacc hcase
    | reserved => exact execTick_of_reserved hacc hp
  | true =>
    cases hp : s.pstate with
    | noBind => exact (CaseRow.nbDrain frames).exec_tick_eq hacc (tickCase_noBind_pending hp)
    | waitFirstSynchro => exact (CaseRow.wsDrain frames).exec_tick_eq hacc (tickCase_wait_pending hp)
    | bound => exact (CaseRow.bdDrain frames).exec_tick_eq hacc (tickCase_bound_pending hp)
    | reserved => exact execTick_of_reserved hacc hp

end Sys2Proof.Machine
end

section
/-! PROOFS. What a TICK does, said once for every case of TICK and every kind of batch (spec/43_state_machine.md R175 to
R189). -/

namespace Sys2Proof.Machine

open Sys2Proof

/-- `TickDoes now s c pend frames regs st cmds`: at the time `now` in the state `s` the TICK of PEND and this batch
selects the case `c`, leaves the registers of `regs`, returns `st` and emits `cmds`. -/
inductive TickDoes (now : Nat) (s : State) :
    TickCase → Bool → List Frame → State → Status → List Command → Prop
  /-- R175. -/
  | searchStay (hp : s.pstate = .noBind) (ht : now - s.lastTs < 128) :
      TickDoes now s .nbStay false [] s .notBound []
  /-- R176. -/
  | searchHop (hp : s.pstate = .noBind) (ht : 128 ≤ now - s.lastTs) :
      TickDoes now s .nbHop false []
        { s with
          bindIdx := s.bindIdx + 1
          progChan := bindChannels.get (s.bindIdx + 1)
          lastTs := now }
        .notBound [.setChannel (bindChannels.get (s.bindIdx + 1))]
  /-- R177, R179: no bind frame. -/
  | searchOn (hp : s.pstate = .noBind) {frames : List Frame} (hnone : ∀ f ∈ frames, ¬isBindFrame f) :
      TickDoes now s .nbDrain true frames s .notBound [.clearRxFlag]
  /-- R177, R178: the first bind frame. -/
  | bind (hp : s.pstate = .noBind) {pre : List Frame} {f : Frame} (post : List Frame)
      (hpre : ∀ g ∈ pre, ¬isBindFrame g) (hf : isBindFrame f) :
      TickDoes now s .nbDrain true (pre ++ f :: post)
        { s with
          txAddr := f.address
          progAddr := f.address
          hopTable := deriveHopTable f.f4
          hopIdx := 0
          progChan := (deriveHopTable f.f4).c0
          lastTs := now
          pstate := .waitFirstSynchro }
        .bindInProgress
        [.setAddress f.address, .setChannel (deriveHopTable f.f4).c0, .flushRx, .clearRxFlag]
  /-- R180. -/
  | waitIdle (hp : s.pstate = .waitFirstSynchro) : TickDoes now s .wsIdle false [] s .bindInProgress []
  /-- R181: no valid frame. -/
  | waitOn (hp : s.pstate = .waitFirstSynchro) {frames : List Frame} (hnone : ∀ f ∈ frames, validate f = false) :
      TickDoes now s .wsDrain true frames s .bindInProgress [.clearRxFlag]
  /-- R181, R182: some valid frame. -/
  | synchro (hp : s.pstate = .waitFirstSynchro) {frames : List Frame} (hvalid : ∃ f ∈ frames, validate f = true) :
      TickDoes now s .wsDrain true frames
        { s with
          pstate := .bound
          lastTs := now
          hopIdx := s.hopIdx + 1
          progChan := s.hopTable.get (s.hopIdx + 1) }
        .bindInProgress [.clearRxFlag, .setChannel (s.hopTable.get (s.hopIdx + 1))]
  /-- R185. -/
  | boundStay (hp : s.pstate = .bound) (ht : now - s.lastTs < 4000) :
      TickDoes now s .bdStay false [] s .boundNoValues []
  /-- R186. -/
  | revert (hp : s.pstate = .bound) (ht : 4000 ≤ now - s.lastTs) :
      TickDoes now s .bdRevert false []
        { s with
          progAddr := Config.bindAddress
          bindIdx := 0
          progChan := bindChannels.c0
          lastTs := now
          pstate := .noBind }
        .boundNoValues [.setAddress Config.bindAddress, .setChannel bindChannels.c0]
  /-- R187: no valid frame. -/
  | boundOn (hp : s.pstate = .bound) {frames : List Frame} (hnone : ∀ f ∈ frames, validate f = false) :
      TickDoes now s .bdDrain true frames s .boundNoValues [.clearRxFlag]
  /-- R187, R188: valid frames, but no control frame among them. -/
  | boundHop (hp : s.pstate = .bound) {frames : List Frame} (hnone : ∀ f ∈ frames, ¬isControlFrame f)
      (hvalid : ∃ f ∈ frames, validate f = true) :
      TickDoes now s .bdDrain true frames
        { s with
          hopIdx := s.hopIdx + 1
          progChan := s.hopTable.get (s.hopIdx + 1) }
        .boundNoValues [.clearRxFlag, .setChannel (s.hopTable.get (s.hopIdx + 1))]
  /-- R187, R189: the last control frame. -/
  | newValues (hp : s.pstate = .bound) (pre : List Frame) {f : Frame} {post : List Frame} (hf : isControlFrame f)
      (hpost : ∀ g ∈ post, ¬isControlFrame g) :
      TickDoes now s .bdDrain true (pre ++ f :: post)
        { s with
          out := some (decodeControls f)
          lastTs := now
          hopIdx := s.hopIdx + 1
          progChan := s.hopTable.get (s.hopIdx + 1) }
        .boundNewValues [.clearRxFlag, .setChannel (s.hopTable.get (s.hopIdx + 1))]

/-! ### Whether a batch holds a valid frame -/

theorem any_validate_eq_false {frames : List Frame} (h : ∀ f ∈ frames, validate f = false) :
    frames.any validate = false :=
  List.any_eq_false.mpr fun f hf => by simp [h f hf]

theorem not_isControlFrame_of_invalid {f : Frame} (h : validate f = false) : ¬isControlFrame f :=
  fun ⟨hvalid, _⟩ => Bool.false_ne_true (h.symm.trans hvalid)

theorem not_isBindFrame_of_invalid {f : Frame} (h : validate f = false) : ¬isBindFrame f :=
  fun ⟨hvalid, _⟩ => Bool.false_ne_true (h.symm.trans hvalid)

theorem validate_cases (frames : List Frame) :
    (∀ f ∈ frames, validate f = false) ∨ ∃ f ∈ frames, validate f = true := by
  by_cases h : ∃ f ∈ frames, validate f = true
  · exact .inr h
  · exact .inl fun f hf => Bool.eq_false_of_not_eq_true fun hv => h ⟨f, hf, hv⟩

/-! ### The TICK and the row of its case do so -/

namespace TickDoes

variable {now : Nat} {s : State} {c : TickCase} {pend : Bool} {frames : List Frame} {regs : State} {st : Status}
  {cmds : List Command}

theorem tickCase_eq (h : TickDoes now s c pend frames regs st cmds) : tickCase pend now s = c := by
  cases h with
  | searchStay hp ht => rw [tickCase_noBind_idle hp, if_neg (by omega)]
  | searchHop hp ht => rw [tickCase_noBind_idle hp, if_pos ht]
  | searchOn hp | bind hp => exact tickCase_noBind_pending hp
  | waitIdle hp => exact tickCase_wait_idle hp
  | waitOn hp | synchro hp => exact tickCase_wait_pending hp
  | boundStay hp ht => rw [tickCase_bound_idle hp, if_neg (by omega)]
  | revert hp ht => rw [tickCase_bound_idle hp, if_pos ht]
  | boundOn hp | boundHop hp | newValues hp => exact tickCase_bound_pending hp

theorem runCase_completes (h : TickDoes now s c pend frames regs st cmds) :
    Completes (runCase c now frames s) regs (.status st) cmds := by
  cases h with
  | searchStay | searchHop | waitIdle | boundStay | revert => exact ⟨_, rfl, .of_outputs, rfl, rfl⟩
  | searchOn hp hnone =>
    exact ⟨_, congrArg Host.Outcome.next (nbDrain_no_bind now s hnone), .of_outputs, rfl, rfl⟩
  | bind hp post hpre hf =>
    exact ⟨_, congrArg Host.Outcome.next (nbDrain_first_bind now post s hpre hf), .of_outputs, rfl, rfl⟩
  | waitOn hp hnone =>
    have hany := any_validate_eq_false hnone
    exact ⟨_, congrArg Host.Outcome.next (wsDrain_no_valid now s hany), .of_outputs, rfl, rfl⟩
  | synchro hp hvalid =>
    have hany := List.any_eq_true.mpr hvalid
    exact ⟨_, congrArg Host.Outcome.next (wsDrain_valid now s hany), .of_outputs, rfl, rfl⟩
  | boundOn hp hnone =>
    have hcontrol : ∀ f ∈ frames, ¬isControlFrame f := fun f hf => not_isControlFrame_of_invalid (hnone f hf)
    have hany := any_validate_eq_false hnone
    exact ⟨_, congrArg Host.Outcome.next (bdDrain_no_valid now s hcontrol hany), .of_outputs, rfl, rfl⟩
  | boundHop hp hnone hvalid =>
    have hany := List.any_eq_true.mpr hvalid
    exact ⟨_, congrArg Host.Outcome.next (bdDrain_bind_only now s hnone hany), .of_outputs, rfl, rfl⟩
  | newValues hp pre hf hpost =>
    exact ⟨_, congrArg Host.Outcome.next (bdDrain_last_control now pre s hf hpost), .of_outputs, rfl, rfl⟩

theorem exec_tick_completes (h : TickDoes now s c pend frames regs st cmds) (hacc : TickAccepted pend now frames s) :
    Completes (exec (.tick pend now frames) s) regs (.status st) cmds := by
  have hexec : exec (.tick pend now frames) s = runCase c now frames s :=
    h.tickCase_eq ▸ execTick_of_accepted hacc
  exact hexec ▸ h.runCase_completes

/-- The TICK, and the row of the case it selects. -/
theorem completes (h : TickDoes now s c pend frames regs st cmds) {i : Instr} (hrow : CaseRow now c pend frames i)
    (hacc : TickAccepted pend now frames s) :
    Completes (exec (.tick pend now frames) s) regs (.status st) cmds ∧ Completes (exec i s) regs (.status st) cmds :=
  ⟨h.exec_tick_completes hacc, hrow.exec_tick_eq hacc h.tickCase_eq ▸ h.exec_tick_completes hacc⟩

end TickDoes

/-- An accepted TICK in a legal PSTATE does one of these. -/
theorem exists_tickDoes {pend : Bool} {now : Nat} {frames : List Frame} {s : State}
    (hacc : TickAccepted pend now frames s) (hlegal : s.pstate ≠ .reserved) :
    ∃ c regs st cmds, TickDoes now s c pend frames regs st cmds := by
  cases pend with
  | false =>
    obtain rfl : frames = [] := hacc.pendIfFrames rfl
    cases hp : s.pstate with
    | noBind =>
      rcases Nat.lt_or_ge (now - s.lastTs) 128 with ht | ht
      · exact ⟨_, _, _, _, .searchStay hp ht⟩
      · exact ⟨_, _, _, _, .searchHop hp ht⟩
    | waitFirstSynchro => exact ⟨_, _, _, _, .waitIdle hp⟩
    | bound =>
      rcases Nat.lt_or_ge (now - s.lastTs) 4000 with ht | ht
      · exact ⟨_, _, _, _, .boundStay hp ht⟩
      · exact ⟨_, _, _, _, .revert hp ht⟩
    | reserved => exact absurd hp hlegal
  | true =>
    cases hp : s.pstate with
    | noBind =>
      rcases nbDrain_cases frames with hnone | ⟨pre, f, post, rfl, hpre, hf⟩
      · exact ⟨_, _, _, _, .searchOn hp hnone⟩
      · exact ⟨_, _, _, _, .bind hp post hpre hf⟩
    | waitFirstSynchro =>
      rcases validate_cases frames with hnone | hvalid
      · exact ⟨_, _, _, _, .waitOn hp hnone⟩
      · exact ⟨_, _, _, _, .synchro hp hvalid⟩
    | bound =>
      rcases bdDrain_cases frames with hnone | ⟨pre, f, post, rfl, hf, hpost⟩
      · rcases validate_cases frames with hinvalid | hvalid
        · exact ⟨_, _, _, _, .boundOn hp hinvalid⟩
        · exact ⟨_, _, _, _, .boundHop hp hnone hvalid⟩
      · exact ⟨_, _, _, _, .newValues hp pre hf hpost⟩
    | reserved => exact absurd hp hlegal

/-- A TICK that answers a next state did one of these. -/
theorem execTick_next_does {pend : Bool} {now : Nat} {frames : List Frame} {s t : State}
    (h : execTick pend now frames s = .next t) :
    ∃ c regs st cmds, TickDoes now s c pend frames regs st cmds ∧ SameRegisters regs t ∧ t.result = .status st ∧
      t.commands = cmds := by
  obtain ⟨hacc, -⟩ := execTick_next h
  have hlegal : s.pstate ≠ .reserved := fun hp => by rw [execTick_of_reserved hacc hp] at h; cases h
  obtain ⟨c, regs, st, cmds, hdoes⟩ := exists_tickDoes hacc hlegal
  obtain ⟨u, hu, hsame, hresult, hcmds⟩ := hdoes.exec_tick_completes hacc
  obtain rfl : t = u := Host.Outcome.next.inj (h.symm.trans hu)
  exact ⟨c, regs, st, cmds, hdoes, hsame, hresult, hcmds⟩

/-- Settles O27: it does one of the above, and each has a status. -/
theorem acceptedTickCompletes : Obligations.AcceptedTickCompletes := by
  intro pend now frames s hacc hlegal
  obtain ⟨c, regs, st, cmds, hdoes⟩ := exists_tickDoes hacc hlegal
  obtain ⟨t, ht, -, hresult, -⟩ := hdoes.exec_tick_completes hacc
  exact ⟨t, st, ht, hresult⟩

/-- Settles O20: in every other PSTATE an accepted TICK completes. -/
theorem tickFaultsOnReservedPstate : Obligations.TickFaultsOnReservedPstate := by
  intro pend now frames s hacc
  refine ⟨fun hp => ?_, fun e hfault => ?_⟩
  · have htick : exec (.tick pend now frames) s = .fault .reservedPstate := execTick_of_reserved hacc hp
    exact ⟨htick, (CaseRow.reservedPstate3 pend frames).exec_tick_eq hacc (tickCase_reserved hp) ▸ htick⟩
  · by_contra hlegal
    obtain ⟨t, _, ht, -⟩ := acceptedTickCompletes pend now frames s hacc hlegal
    rw [hfault] at ht
    cases ht

end Sys2Proof.Machine
end

section
/-! PROOFS. Each case of TICK by itself (spec/43_state_machine.md R175 to R189). -/

namespace Sys2Proof.Machine

open Sys2Proof

/-! ### NO_BIND -/

/-- Settles O28: the idle TICK in NO_BIND that stays. -/
theorem searchStaysOnChannel : Obligations.SearchStaysOnChannel := fun _ _ hreset hp htime hdwell =>
  (TickDoes.searchStay hp hdwell).completes .nbStay (tickAccepted_idle hreset htime)

/-- Settles O29: the idle TICK in NO_BIND that hops. -/
theorem searchHopsAfterDwell : Obligations.SearchHopsAfterDwell := fun _ _ hreset hp htime hdwell =>
  (TickDoes.searchHop hp hdwell).completes .nbHop (tickAccepted_idle hreset htime)

/-- Settles O30: the NO_BIND drain splits at its first bind frame. -/
theorem searchBindsToFirstBindFrame : Obligations.SearchBindsToFirstBindFrame :=
  fun _ _ _ post _ hacc hp hpre hf => (TickDoes.bind hp post hpre hf).completes (.nbDrain _) hacc

/-- Settles O31: the NO_BIND drain that finds no bind frame. -/
theorem searchPassesOverOtherFrames : Obligations.SearchPassesOverOtherFrames := fun _ _ _ hacc hp hnone =>
  (TickDoes.searchOn hp hnone).completes (.nbDrain _) hacc

/-! ### WAIT_FIRST_SYNCHRO -/

/-- Settles O32: neither of its two cases tests the elapsed time. -/
theorem waitHasNoTimeout : Obligations.WaitHasNoTimeout := by
  intro now frames s hreset htime hp
  obtain ⟨htick, hrow⟩ := (TickDoes.waitIdle hp).completes .wsIdle (tickAccepted_idle hreset htime)
  exact ⟨htick, hrow, fun hacc hnone => (TickDoes.waitOn hp hnone).completes (.wsDrain _) hacc⟩

/-- Settles O33: the WAIT_FIRST_SYNCHRO drain that finds a valid frame. -/
theorem firstValidFrameCompletesBind : Obligations.FirstValidFrameCompletesBind := fun _ _ _ hacc hp hvalid =>
  (TickDoes.synchro hp hvalid).completes (.wsDrain _) hacc

/-! ### BOUND -/

/-- Settles O34: the idle TICK in BOUND that stays. -/
theorem linkStaysBound : Obligations.LinkStaysBound := fun _ _ hreset hp htime hlink =>
  (TickDoes.boundStay hp hlink).completes .bdStay (tickAccepted_idle hreset htime)

/-- Settles O35: the idle TICK in BOUND that reverts. -/
theorem signalLossRevertsToSearch : Obligations.SignalLossRevertsToSearch := fun _ _ hreset hp htime hloss =>
  (TickDoes.revert hp hloss).completes .bdRevert (tickAccepted_idle hreset htime)

/-- Settles O36: the BOUND drain splits at its last control frame. -/
theorem lastControlFrameWins : Obligations.LastControlFrameWins := fun _ pre _ _ _ hacc hp hf hpost =>
  (TickDoes.newValues hp pre hf hpost).completes (.bdDrain _) hacc

/-- Settles O37: a bind frame is a valid frame, so a batch that holds one advances the hop. -/
theorem boundDrainWithoutControlFrame : Obligations.BoundDrainWithoutControlFrame := by
  intro now frames s hacc hp hnone
  refine ⟨fun hinvalid => (TickDoes.boundOn hp hinvalid).completes (.bdDrain _) hacc, fun ⟨g, hmem, hg⟩ => ?_⟩
  have hvalid : ∃ f ∈ frames, validate f = true := ⟨g, hmem, hg.1⟩
  exact (TickDoes.boundHop hp hnone hvalid).completes (.bdDrain _) hacc

end Sys2Proof.Machine
end

section
/-! PROOFS. The frame rows of each drain, and the BOUND drain as its rows run one after the other
(spec/30_encoding.md R74; spec/43_state_machine.md R178, R182, R187, R188). -/

namespace Sys2Proof.Machine

open Sys2Proof

/-! ### The row of a frame by its class -/

theorem frameRow_noBind_bind {f : Frame} (h : isBindFrame f) : frameRow .noBind f = some .nbBind := by
  unfold frameRow
  rw [frameClass_bind.mpr h]

theorem frameRow_wait_valid {f : Frame} (h : validate f = true) : frameRow .waitFirstSynchro f = some .wsValid := by
  unfold frameRow
  cases hclass : frameClass f with
  | invalid => rw [frameClass_invalid.mp hclass] at h; cases h
  | bind | control => rfl

/-- The row of each class in BOUND (R188). -/
def boundRow (f : Frame) : FrameRow :=
  match frameClass f with
  | .invalid => .invalid
  | .bind => .bdBind
  | .control => .bdControl

theorem frameRow_bound (f : Frame) : frameRow .bound f = some (boundRow f) := by
  unfold frameRow boundRow
  cases frameClass f <;> rfl

theorem boundRow_of_bind {f : Frame} (h : isBindFrame f) : boundRow f = .bdBind := by
  rw [boundRow, frameClass_bind.mpr h]

theorem boundRow_of_control {f : Frame} (h : isControlFrame f) : boundRow f = .bdControl := by
  rw [boundRow, frameClass_control.mpr h]

/-! ### One frame -/

/-- Settles O39: the class of the frame and PSTATE select the row, whose action is BIND(f) and the end of the drain. -/
theorem bindFrameAction : Obligations.BindFrameAction := by
  intro now f s hreset htime hp hf
  have hrow : frameRow s.pstate f = some .nbBind := hp ▸ frameRow_noBind_bind hf
  have hexec : exec (.frameNbBind now f) s = .next (nbBindFrame now f s) :=
    runTimedFrameRow_next_iff.mpr ⟨htime, hreset, hrow, rfl⟩
  rw [hexec, nbBindFrame_eq]
  simp only [List.append_assoc, List.cons_append, List.nil_append]
  rfl

/-- Settles O40: the row tests the checksum only, so both valid classes select it. -/
theorem waitFrameAction : Obligations.WaitFrameAction := by
  intro now f s hreset htime hp
  refine ⟨fun hvalid => ?_, fun hinvalid => execFrameInvalid_next_iff.mpr ⟨hinvalid, rfl⟩⟩
  have hrow : frameRow s.pstate f = some .wsValid := hp ▸ frameRow_wait_valid hvalid
  exact runTimedFrameRow_next_iff.mpr ⟨htime, hreset, hrow, rfl⟩

/-- Settles O41: each class selects its row. -/
theorem boundFrameActions : Obligations.BoundFrameActions := by
  intro now f s hreset hp
  have hrow : frameRow s.pstate f = some (boundRow f) := hp ▸ frameRow_bound f
  refine ⟨fun hf => ?_, fun hf htime => ?_, fun hinvalid => execFrameInvalid_next_iff.mpr ⟨hinvalid, rfl⟩⟩
  · rw [boundRow_of_bind hf] at hrow
    exact runFrameRow_next_iff.mpr ⟨hreset, hrow, rfl⟩
  · rw [boundRow_of_control hf] at hrow
    exact runTimedFrameRow_next_iff.mpr ⟨htime, hreset, hrow, rfl⟩

/-! ### The rows of a BOUND drain -/

/-- The state of a BOUND drain that is running: what the frame rows test (log entry 9). -/
structure DrainingBound (now : Nat) (s : State) : Prop where
  resetRan : s.resetDone = true
  timeForward : s.lastTs ≤ now
  bound : s.pstate = .bound

/-- A frame row in BOUND does what the drain does with the frame. -/
theorem exec_boundRow {now : Nat} {s : State} (h : DrainingBound now s) (f : Frame) :
    exec ((boundRow f).instr now f) s = .next (bdFrame now s f) := by
  obtain ⟨hbind, hcontrol, hinvalid⟩ := boundFrameActions now f s h.resetRan h.bound
  unfold boundRow bdFrame
  cases hclass : frameClass f with
  | invalid => exact hinvalid (frameClass_invalid.mp hclass)
  | bind => exact hbind (frameClass_bind.mp hclass)
  | control => exact hcontrol (frameClass_control.mp hclass) h.timeForward

theorem DrainingBound.bdFrame {now : Nat} {s : State} (h : DrainingBound now s) (f : Frame) :
    DrainingBound now (bdFrame now s f) := by
  unfold Machine.bdFrame
  cases frameClass f with
  | invalid => exact h
  | bind => exact ⟨h.resetRan, h.timeForward, h.bound⟩
  | control => exact ⟨h.resetRan, Nat.le_refl now, h.bound⟩

theorem runAll_boundRows {now : Nat} {s : State} (h : DrainingBound now s) (frames : List Frame) :
    runAll (frames.map fun f => (boundRow f).instr now f) s = .next (frames.foldl (bdFrame now) s) := by
  induction frames generalizing s with
  | nil => rfl
  | cons f fs ih =>
    rw [List.map_cons, runAll, exec_boundRow h f]
    exact ih (h.bdFrame f)

theorem decode_boundRow (now : Nat) (f : Frame) :
    decode (.frame .bound now f.toBytes) = .ok ((boundRow f).instr now f) :=
  decodeFrame_toBytes (frameRow_bound f) now

/-- The rows leave the outputs and OUT to the end of the drain. -/
theorem foldl_bdFrame_keeps (now : Nat) (frames : List Frame) (s : State) :
    (frames.foldl (bdFrame now) s).out = s.out ∧ (frames.foldl (bdFrame now) s).commands = s.commands ∧
      (frames.foldl (bdFrame now) s).resetDone = s.resetDone := by
  obtain ⟨ts, vs, ds, v, h⟩ := foldl_bdFrame_frame now frames s
  rw [h]
  exact ⟨rfl, rfl, rfl⟩

/-! ### The end of a BOUND drain (R187) -/

theorem deliverValues_registers (s : State) :
    SameRegisters { s with out := if s.decodedSeen then s.vals else s.out } (deliverValues s).clearWorking := by
  unfold deliverValues
  split <;> exact .of_outputs

theorem deliverValues_result (s : State) :
    (deliverValues s).result = .status (if s.decodedSeen then .boundNewValues else .boundNoValues) := by
  unfold deliverValues
  split <;> rfl

theorem deliverValues_commands (s : State) : (deliverValues s).commands = s.commands := by
  unfold deliverValues
  split <;> rfl

/-- HOP_ADVANCE touches neither OUT nor the working state. -/
theorem advanceIfValid_keeps (s : State) :
    (advanceIfValid s).out = s.out ∧ (advanceIfValid s).decodedSeen = s.decodedSeen ∧
      (advanceIfValid s).vals = s.vals := by
  unfold advanceIfValid
  split <;> exact ⟨rfl, rfl, rfl⟩

theorem advanceIfValid_runs_hopAdvance {s : State} (hreset : s.resetDone = true) :
    if s.validSeen then exec .hopAdvance s = .next (advanceIfValid s) else advanceIfValid s = s := by
  split
  · next hvalid =>
    rw [advanceIfValid_of_valid hvalid]
    exact runIndexStep_next_iff.mpr ⟨hreset, rfl⟩
  · next hnone => exact advanceIfValid_of_none (Bool.eq_false_of_not_eq_true hnone)

/-- What follows the loop, from the state `d` that the loop leaves: `a` after the hop advance, `t` at the end. -/
theorem bdDrain_end {d : State} (hreset : d.resetDone = true) (hcmds : d.commands = []) :
    ∃ a t, t = (deliverValues (advanceIfValid (d.emit .clearRxFlag))).clearWorking ∧
      (if d.validSeen then exec .hopAdvance { d with commands := [.clearRxFlag] } = .next a
        else a = { d with commands := [.clearRxFlag] }) ∧
      t.commands = a.commands ∧ SameRegisters { a with out := if d.decodedSeen then d.vals else d.out } t ∧
      t.result = .status (if d.decodedSeen then .boundNewValues else .boundNoValues) := by
  have hemit : d.emit .clearRxFlag = { d with commands := [.clearRxFlag] } := by simp [State.emit, hcmds]
  rw [hemit]
  have hhop := advanceIfValid_runs_hopAdvance (s := { d with commands := [.clearRxFlag] }) hreset
  have hkeeps := advanceIfValid_keeps { d with commands := [.clearRxFlag] }
  generalize advanceIfValid { d with commands := [.clearRxFlag] } = a at hhop hkeeps
  obtain ⟨hout, hseen, hvals⟩ : a.out = d.out ∧ a.decodedSeen = d.decodedSeen ∧ a.vals = d.vals := hkeeps
  refine ⟨a, _, rfl, hhop, deliverValues_commands a, ?_, ?_⟩
  · rw [← hout, ← hseen, ← hvals]
    exact deliverValues_registers a
  · rw [← hseen]
    exact deliverValues_result a

/-- Settles O42: the loop of the drain is the run of its rows, and what follows the loop is R187's end. -/
theorem boundDrainRunsFrameRows : Obligations.BoundDrainRunsFrameRows := by
  intro now frames s hacc hp
  have hdrain : DrainingBound now s.beginOperation.clearWorking := ⟨hacc.resetRan, hacc.timeForward, hp⟩
  obtain ⟨hout, hcmds, hreset⟩ := foldl_bdFrame_keeps now frames s.beginOperation.clearWorking
  obtain ⟨a, t, rfl, hhop, hacmds, hregs, hresult⟩ := bdDrain_end (hreset.trans hacc.resetRan) hcmds
  have hexec : exec (.tick true now frames) s = .next (bdDrain now frames s) :=
    (execTick_of_accepted hacc).trans (by rw [tickCase_bound_pending hp]; rfl)
  have hrows : frames.map (fun f => decode (.frame .bound now f.toBytes)) =
      (frames.map fun f => (boundRow f).instr now f).map .ok := by
    simp only [decode_boundRow, List.map_map, Function.comp_def]
  rw [hout] at hregs
  exact ⟨_, _, a, _, hrows, runAll_boundRows hdrain frames, hhop, hexec, hacmds, hregs, hresult⟩

end Sys2Proof.Machine
end

section
/-! PROOFS. The rules over all TICKs: idle TICKs that stay put, pending TICKs that come late, the transition table, and
the commands with their mirrors (spec/43_state_machine.md R174, R192 to R194). -/

namespace Sys2Proof.Machine

open Sys2Proof

/-! ### Idle TICKs that stay put (R192) -/

/-- An idle TICK at this time selects TICK.NB.STAY, TICK.WS.IDLE or TICK.BD.STAY. -/
def StaysPut (now : Nat) (s : State) : Prop :=
  (s.pstate = .noBind ∧ now - s.lastTs < 128) ∨ s.pstate = .waitFirstSynchro ∨
    (s.pstate = .bound ∧ now - s.lastTs < 4000)

/-- What selects such a case at one time selects it before. -/
theorem StaysPut.mono {now later : Nat} {s : State} (h : StaysPut later s) (hle : now ≤ later) : StaysPut now s := by
  rcases h with ⟨hp, ht⟩ | hp | ⟨hp, ht⟩
  · exact .inl ⟨hp, by omega⟩
  · exact .inr (.inl hp)
  · exact .inr (.inr ⟨hp, by omega⟩)

theorem StaysPut.execTick_eq {now : Nat} {s : State} (h : StaysPut now s) (hacc : TickAccepted false now [] s) :
    ∃ st, execTick false now [] s = .next (s.beginOperation.returnStatus st) := by
  rw [execTick_of_accepted hacc]
  rcases h with ⟨hp, ht⟩ | hp | ⟨hp, ht⟩
  · exact ⟨.notBound, by rw [tickCase_noBind_idle hp, if_neg (by omega)]; rfl⟩
  · exact ⟨.bindInProgress, by rw [tickCase_wait_idle hp]; rfl⟩
  · exact ⟨.boundNoValues, by rw [tickCase_bound_idle hp, if_neg (by omega)]; rfl⟩

/-- No TICK reads the outputs of the operation before it (log entry 8). -/
theorem execTick_after_outputs (pend : Bool) (now : Nat) (frames : List Frame) (s : State) (st : Status) :
    execTick pend now frames (s.beginOperation.returnStatus st) = execTick pend now frames s := by
  have hrun (c : TickCase) : runCase c now frames (s.beginOperation.returnStatus st) = runCase c now frames s := by
    cases c <;> rfl
  have hrefusal : tickRefusal pend now frames (s.beginOperation.returnStatus st) = tickRefusal pend now frames s := rfl
  have hcase : tickCase pend now (s.beginOperation.returnStatus st) = tickCase pend now s := rfl
  simp only [execTick, hrefusal, hcase, hrun]

/-- Settles O44: both TICKs change the outputs of the operation only, which no TICK reads. -/
theorem idleTicksAreIdempotent : Obligations.IdleTicksAreIdempotent := by
  intro now later s t hstays hle h
  have hstay : StaysPut later s := hstays
  obtain ⟨hacc, -⟩ := execTick_next h
  have hacc' : TickAccepted false later [] s := tickAccepted_idle hacc.resetRan (Nat.le_trans hacc.timeForward hle)
  obtain ⟨st, hnow⟩ := (hstay.mono hle).execTick_eq hacc
  obtain ⟨st', hlater⟩ := hstay.execTick_eq hacc'
  obtain rfl : t = s.beginOperation.returnStatus st := Host.Outcome.next.inj (h.symm.trans hnow)
  have hagain := execTick_after_outputs false later [] s st
  exact ⟨.of_outputs, rfl, hagain, _, hagain.trans hlater, .of_outputs, rfl⟩

/-! ### Pending TICKs (R193) -/

/-- A batch of invalid frames only is drained without a register write. -/
theorem TickDoes.of_invalid {now : Nat} {s : State} {c : TickCase} {frames : List Frame} {regs : State} {st : Status}
    {cmds : List Command} (h : TickDoes now s c true frames regs st cmds)
    (hinvalid : ∀ f ∈ frames, validate f = false) : regs = s ∧ cmds = [.clearRxFlag] := by
  cases h with
  | searchOn | waitOn | boundOn => exact ⟨rfl, rfl⟩
  | bind hp post hpre hf => exact absurd hf (not_isBindFrame_of_invalid (hinvalid _ (by simp)))
  | synchro hp hvalid | boundHop hp hnone hvalid =>
    obtain ⟨f, hmem, hf⟩ := hvalid
    rw [hinvalid f hmem] at hf
    cases hf
  | newValues hp pre hf hpost => exact absurd hf (not_isControlFrame_of_invalid (hinvalid _ (by simp)))

/-- Settles O45, by what each drain writes. -/
theorem pendingTickNeverHopsOrReverts : Obligations.PendingTickNeverHopsOrReverts := by
  intro now frames s t h
  obtain ⟨c, regs, st, cmds, hdoes, hsame, -, hcmds⟩ := execTick_next_does h
  rw [hsame.bindIdx, hsame.pstate, hcmds]
  refine ⟨fun hp => ?_, fun hp => ?_, fun hinvalid => ?_⟩
  · cases hdoes <;> rfl
  · cases hdoes with
    | searchOn | waitOn | boundOn | boundHop | newValues => exact hp
    | synchro => rfl
    | bind hp' => rw [hp] at hp'; cases hp'
  · obtain ⟨rfl, hflag⟩ := hdoes.of_invalid hinvalid
    exact ⟨hsame, hflag⟩

/-! ### The transition table (R194) -/

/-- Settles O46: each thing a TICK does is in one row of the table. -/
theorem tickTransitionTable : Obligations.TickTransitionTable := by
  intro pend now frames s t h
  obtain ⟨c, regs, st, cmds, hdoes, hsame, hresult, -⟩ := execTick_next_does h
  rw [hsame.pstate, hsame.out, hresult]
  cases hdoes with
  | searchStay hp | searchHop hp => exact .inl ⟨hp, hp, rfl, rfl, nofun⟩
  | searchOn hp hnone => exact .inl ⟨hp, hp, rfl, rfl, fun _ => hnone⟩
  | bind hp post hpre hf => exact .inr (.inl ⟨hp, rfl, rfl, rfl, rfl, _, by simp, hf⟩)
  | waitIdle hp => exact .inr (.inr (.inl ⟨hp, hp, rfl, rfl, nofun⟩))
  | waitOn hp hnone => exact .inr (.inr (.inl ⟨hp, hp, rfl, rfl, fun _ => hnone⟩))
  | synchro hp hvalid => exact .inr (.inr (.inr (.inl ⟨hp, rfl, rfl, rfl, rfl, hvalid⟩)))
  | boundStay hp ht => exact .inr (.inr (.inr (.inr (.inl ⟨hp, hp, rfl, rfl, fun _ => ht, nofun⟩))))
  | boundOn hp hinvalid =>
    have hnone : ∀ f ∈ frames, ¬isControlFrame f := fun f hf => not_isControlFrame_of_invalid (hinvalid f hf)
    exact .inr (.inr (.inr (.inr (.inl ⟨hp, hp, rfl, rfl, nofun, fun _ => hnone⟩))))
  | boundHop hp hnone => exact .inr (.inr (.inr (.inr (.inl ⟨hp, hp, rfl, rfl, nofun, fun _ => hnone⟩))))
  | revert hp ht => exact .inr (.inr (.inr (.inr (.inr (.inl ⟨hp, rfl, rfl, rfl, rfl, ht⟩)))))
  | newValues hp pre hf hpost =>
    exact .inr (.inr (.inr (.inr (.inr (.inr ⟨hp, hp, rfl, rfl, _, by simp, hf, rfl⟩)))))

/-! ### The mirrors as the last commands (R30, R31, R174) -/

/-- The channel of a SetChannel. -/
def Command.channel? (c : Command) : Option Byte :=
  match c with
  | .setChannel ch => some ch
  | .setAddress _ | .flushRx | .clearRxFlag => none

/-- The address of a SetAddress. -/
def Command.address? (c : Command) : Option Address :=
  match c with
  | .setAddress a => some a
  | .setChannel _ | .flushRx | .clearRxFlag => none

theorem Command.channel?_eq_none {c : Command} (h : ∀ ch, c ≠ .setChannel ch) : c.channel? = none := by
  cases c with
  | setChannel ch => exact absurd rfl (h ch)
  | setAddress | flushRx | clearRxFlag => rfl

theorem Command.address?_eq_none {c : Command} (h : ∀ a, c ≠ .setAddress a) : c.address? = none := by
  cases c with
  | setAddress a => exact absurd rfl (h a)
  | setChannel | flushRx | clearRxFlag => rfl

/-- A mirror after a sequence of commands: the operand of the last command that has one, or the old value. -/
def mirrorAfter {α : Type} (operand? : Command → Option α) (old : α) (cmds : List Command) : α :=
  cmds.foldl (fun x c => (operand? c).getD x) old

theorem mirrorAfter_of_none {α : Type} {operand? : Command → Option α} (old : α) {cmds : List Command}
    (h : ∀ c ∈ cmds, operand? c = none) : mirrorAfter operand? old cmds = old := by
  induction cmds with
  | nil => rfl
  | cons c cs ih =>
    rw [mirrorAfter, List.foldl_cons, h c List.mem_cons_self]
    exact ih fun d hd => h d (List.mem_cons_of_mem _ hd)

theorem mirrorAfter_of_last {α : Type} {operand? : Command → Option α} (old : α) (pre : List Command) {c : Command}
    {post : List Command} {x : α} (hc : operand? c = some x) (hpost : ∀ d ∈ post, operand? d = none) :
    mirrorAfter operand? old (pre ++ c :: post) = x := by
  rw [mirrorAfter, List.foldl_append, List.foldl_cons, hc]
  exact mirrorAfter_of_none x hpost

namespace TickDoes

variable {now : Nat} {s : State} {c : TickCase} {pend : Bool} {frames : List Frame} {regs : State} {st : Status}
  {cmds : List Command}

theorem count_clearRxFlag (h : TickDoes now s c pend frames regs st cmds) :
    cmds.count .clearRxFlag = if pend then 1 else 0 := by
  cases h <;> rfl

theorem flushRx_iff (h : TickDoes now s c pend frames regs st cmds) :
    .flushRx ∈ cmds ↔ s.pstate = .noBind ∧ regs.pstate = .waitFirstSynchro := by
  cases h with
  | bind hp => simp [hp]
  | searchStay hp | searchHop hp | searchOn hp | waitIdle hp | waitOn hp | synchro hp | boundStay hp | revert hp
  | boundOn hp | boundHop hp | newValues hp => simp [hp]

theorem progChan_eq (h : TickDoes now s c pend frames regs st cmds) :
    regs.progChan = mirrorAfter Command.channel? s.progChan cmds := by
  cases h <;> rfl

theorem progAddr_eq (h : TickDoes now s c pend frames regs st cmds) :
    regs.progAddr = mirrorAfter Command.address? s.progAddr cmds := by
  cases h <;> rfl

end TickDoes

/-- Settles O52: the clauses on the mirrors say what a mirror is after the commands of the TICK. -/
theorem drainClearsFlagOnce : Obligations.DrainClearsFlagOnce := by
  intro pend now frames s t h
  obtain ⟨c, regs, st, cmds, hdoes, hsame, -, rfl⟩ := execTick_next_does h
  rw [hsame.pstate, hsame.progChan, hsame.progAddr, hdoes.progChan_eq, hdoes.progAddr_eq]
  refine ⟨hdoes.count_clearRxFlag, hdoes.flushRx_iff, fun pre ch post hcmds hpost => ?_,
    fun pre a post hcmds hpost => ?_, fun hnone => ?_, fun hnone => ?_⟩
  · rw [hcmds]
    exact mirrorAfter_of_last _ pre rfl fun d hd => Command.channel?_eq_none fun ch' hd' => hpost ch' (hd' ▸ hd)
  · rw [hcmds]
    exact mirrorAfter_of_last _ pre rfl fun d hd => Command.address?_eq_none fun a' hd' => hpost a' (hd' ▸ hd)
  · exact mirrorAfter_of_none _ fun d hd => Command.channel?_eq_none fun ch hd' => hnone ch (hd' ▸ hd)
  · exact mirrorAfter_of_none _ fun d hd => Command.address?_eq_none fun a hd' => hnone a (hd' ▸ hd)

end Sys2Proof.Machine
end

section
/-! PROOFS. The reason of a refused TICK (spec/60_exceptions.md R224, R226; spec/43_state_machine.md R172). -/

namespace Sys2Proof.Machine

open Sys2Proof

/-- A batch overflows exactly when it is longer than a bounded depth (R172). -/
theorem queueHolds_eq_false_iff (n : Nat) :
    queueHolds n = false ↔ ∃ k, Config.rxqDepth = .bounded k ∧ k + 1 < n := by
  rw [← Bool.not_eq_true, queueHolds_iff]
  simp only [not_forall, not_le, exists_prop]

/-- Settles O19: a TICK is refused by its checks only, and each check that fails names its condition. -/
theorem tickRefusalNamesItsReason : Obligations.TickRefusalNamesItsReason := by
  intro pend now frames s r hrefused
  have hcheck : tickRefusal pend now frames s = some r := execTick_refused_iff.mp hrefused
  rw [← queueHolds_eq_false_iff]
  exact tickRefusal_eq_some hcheck

end Sys2Proof.Machine
end

section
/-! PROOFS. Power-up: what can happen before the first RESET (spec/70_reset_and_hazards.md R251,
spec/43_state_machine.md R191). -/

namespace Sys2Proof.Machine

open Sys2Proof

/-- What every step keeps holds at the end of every run. -/
theorem run_keeps {M : Host.Core} {P : M.State → Prop} (hstep : ∀ s t, P s → M.step s = .next t → P t) {k : Nat}
    {s t : M.State} (hs : P s) (h : M.run k s = .next t) : P t := by
  induction k generalizing s with
  | zero =>
    cases h
    exact hs
  | succ k ih =>
    unfold Host.Core.run at h
    split at h
    · next s' hs' => exact ih (hstep s s' hs hs') h
    · cases h
    · cases h

/-- Before RESET every TICK is refused, whatever else it violates: the model reports this reason first (R191, R224). -/
theorem tickRefusal_of_not_reset {pend : Bool} {now : Nat} {frames : List Frame} {s : State}
    (hs : s.resetDone = false) : tickRefusal pend now frames s = some .noReset := by
  simp [tickRefusal, clockRefusal, hs]

/-- What a step can do before RESET: it takes the oldest request, and leaves the registers or ran RESET. -/
theorem step_next_of_not_reset {s t : State} (hs : s.resetDone = false) (h : step s = .next t) :
    ∃ request, s.requests = request :: t.requests ∧
      (SameRegisters { s with requests := t.requests } t ∨
        ∃ now, request = .transaction now [0x00] ∧ t.resetDone = true) := by
  rcases step_next h with ⟨rest, r, hreq, -, rfl⟩ | ⟨now, bytes, rest, i, hreq, hd, hexec⟩
  · exact ⟨_, hreq, .inl (sameRegisters_unitResult _ _)⟩
  · rcases exec_transaction_next hd hexec with ⟨rfl, hreset⟩ | ⟨pend, frames, -, htick⟩ | ⟨r, rfl⟩
    · cases hreset
      exact ⟨_, hreq, .inr ⟨now, rfl, rfl⟩⟩
    · obtain ⟨hacc, -⟩ := execTick_next htick
      have hdone : s.resetDone = true := hacc.resetRan
      simp [hs] at hdone
    · exact ⟨_, hreq, .inl (sameRegisters_unitResult _ _)⟩

/-- RESET has not run, and no request the host still has is one. -/
def NoResetAhead (s : State) : Prop :=
  s.resetDone = false ∧ ∀ now, .transaction now [0x00] ∉ s.requests

theorem NoResetAhead.after_step {s t : State} (hs : NoResetAhead s) (h : step s = .next t) : NoResetAhead t := by
  obtain ⟨hdone, hnone⟩ := hs
  obtain ⟨request, hreq, hsame | ⟨now, rfl, -⟩⟩ := step_next_of_not_reset hdone h
  · exact ⟨hsame.resetDone.trans hdone, fun now hmem => hnone now (hreq ▸ List.mem_cons_of_mem _ hmem)⟩
  · exact absurd (hreq ▸ List.mem_cons_self) (hnone now)

/-- Settles O2, by what a step can do before RESET: a run keeps that RESET has not run and that none is ahead. -/
theorem resetStateComesFromPowerUp : Obligations.ResetStateComesFromPowerUp := by
  refine ⟨⟨rfl, rfl⟩, rfl, rfl, fun s pend now frames hs => ?_, fun s t hs h => ?_, fun requests k t hnone h => ?_⟩
  · exact execTick_refused_iff.mpr (tickRefusal_of_not_reset hs)
  · obtain ⟨request, hreq, hsame | ⟨now, rfl, hdone⟩⟩ := step_next_of_not_reset hs h
    · exact .inl hsame
    · exact .inr ⟨now, t.requests, hreq, hdone⟩
  · have hstart : NoResetAhead { State.powerUp with requests := requests } := ⟨rfl, hnone⟩
    have hend : NoResetAhead t := run_keeps (M := fromPowerUp) (fun _ _ hs hnext => hs.after_step hnext) hstart h
    exact hend.1

end Sys2Proof.Machine
end
